-- ==== Sys2Proof/Word.lean ====
section
/-! DEFINITION. The word types of the block: bytes, 32-bit words, and the narrow fields of its registers and ports. -/

namespace Sys2Proof

/-- A byte: 8 bits, unsigned 0..255 (00_scope.md, notation). -/
abbrev Byte := BitVec 8

/-- A 32-bit word: a command word, an operand word or a register value (30_encoding.md R90, 10_state.md R21). -/
abbrev Word := BitVec 32

/-- The index of an output port: 4 bits (30_encoding.md R93, 10_state.md R34). -/
abbrev PortIndex := BitVec 4

/-- A byte offset on the mirror port, MB_ADDR[11:0] (44_mirror.md R210). -/
abbrev MirrorAddr := BitVec 12

end Sys2Proof
end

