-- ==== Sys2Proof/Syntax.lean ====
section
/-! DEFINITION. The commands of the block: one constructor per row of spec/opcode_table.json, operands as 30_encoding.md R98 decodes them. -/

namespace Sys2Proof

/-- A command with its operands.

Index operands are the signed integers of `sext_16` (R94), brightness, count and port operands are unsigned integers (R98), and colour
bytes and the clock word are bit fields of ARG (R93, R96).  The ranges a command word can hold are `Instr.wellFormed` (R107). -/
inductive Instr where
  /-- NOP (41_lifecycle.md R134). -/
  | nop
  /-- INIT: `nleds` pixels, initial brightness `ibri`, output port `port`, maximum serial clock `clk` Hz from ARG (41_lifecycle.md R135). -/
  | init (nleds ibri port : Nat) (clk : Word)
  /-- CLOSE (41_lifecycle.md R140). -/
  | close
  /-- SET_PIXEL: index `idx` and a colour from ARG (42_pixel.md R150). -/
  | setPixel (idx : Int) (red green blue : Byte)
  /-- GET_PIXEL: index `idx` (42_pixel.md R154). -/
  | getPixel (idx : Int)
  /-- SET_BRIGHTNESS: index `idx` and brightness `bri` (42_pixel.md R157). -/
  | setBrightness (idx : Int) (bri : Nat)
  /-- SHOW (43_serializer.md R170). -/
  | showFrame
  /-- SYNC_UP (44_mirror.md R200). -/
  | syncUp
  /-- SYNC_DOWN (44_mirror.md R205). -/
  | syncDown
  /-- ROTATE: `pos` positions (45_buffer_ops.md R220). -/
  | rotate (pos : Int)
  /-- CLEAR (45_buffer_ops.md R226). -/
  | clear
  /-- ENC_PREFIX: brightness `bri` (40_encoder.md R120). -/
  | encPrefix (bri : Nat)
  /-- ENC_ENDLEN: pixel count `nl` (40_encoder.md R122). -/
  | encEndlen (nl : Nat)
  deriving DecidableEq, Repr

end Sys2Proof
end

