-- ==== Sys2Proof/WellFormed.lean ====
section
/-! DEFINITION. The operand ranges of 30_encoding.md R107: the commands a command word and an operand word can spell.
An operand outside its range is an assembly error, not a truncation. -/

namespace Sys2Proof

/-- An index or positions operand fits the 16-bit signed field IDX (R94). -/
def indexFits (idx : Int) : Bool := decide (-32768 ≤ idx ∧ idx ≤ 32767)

/-- A brightness operand fits a 7-bit field (R93, R95, R97). -/
def brightnessFits (bri : Nat) : Bool := decide (bri ≤ 127)

/-- A pixel count operand fits an 11-bit field (R93, R97). -/
def countFits (n : Nat) : Bool := decide (n ≤ 2047)

/-- A port operand fits the 4-bit field PORT (R93). -/
def portFits (port : Nat) : Bool := decide (port ≤ 15)

/-- The operands of a command are in the ranges of R107. -/
def Instr.wellFormed : Instr → Bool
  | .nop => true
  | .init nleds ibri port _ => countFits nleds && brightnessFits ibri && portFits port
  | .close => true
  | .setPixel idx _ _ _ => indexFits idx
  | .getPixel idx => indexFits idx
  | .setBrightness idx bri => indexFits idx && brightnessFits bri
  | .showFrame => true
  | .syncUp => true
  | .syncDown => true
  | .rotate pos => indexFits pos
  | .clear => true
  | .encPrefix bri => brightnessFits bri
  | .encEndlen nl => countFits nl

end Sys2Proof
end

