-- ==== Sys2Proof/Decode.lean ====
section
/-! DEFINITION. The decoder and the encoder of command words (30_encoding.md), the opcode table as data, and the byte lanes of a word. -/

namespace Sys2Proof

/-- The six command formats (R91). -/
inductive Format where
  | fn | fi | fx | fxb | fb7 | fl
  deriving DecidableEq, Repr

/-- The reserved bits of a format, RESMASK of 41_lifecycle.md R133 (30_encoding.md R91). -/
def Format.resMask : Format → Word
  | .fn => 0x0FFFFFFF
  | .fi => 0x0FC00000
  | .fx => 0x0FFF0000
  | .fxb => 0x0F800000
  | .fb7 => 0x0FFFFF80
  | .fl => 0x0FFFF800

/-- One row of the opcode map (R99): the mnemonic, the opcode OP and the format. -/
structure OpRow where
  mnemonic : String
  op : BitVec 4
  format : Format
  deriving DecidableEq, Repr

/-- The opcode map of R99, in opcode order. -/
def opcodeMap : List OpRow :=
  [⟨"NOP", 0x0, .fn⟩, ⟨"INIT", 0x1, .fi⟩, ⟨"CLOSE", 0x2, .fn⟩, ⟨"SET_PIXEL", 0x3, .fx⟩, ⟨"GET_PIXEL", 0x4, .fx⟩,
   ⟨"SET_BRIGHTNESS", 0x5, .fxb⟩, ⟨"SHOW", 0x6, .fn⟩, ⟨"SYNC_UP", 0x7, .fn⟩, ⟨"SYNC_DOWN", 0x8, .fn⟩, ⟨"ROTATE", 0x9, .fx⟩,
   ⟨"CLEAR", 0xA, .fn⟩, ⟨"ENC_PREFIX", 0xB, .fb7⟩, ⟨"ENC_ENDLEN", 0xC, .fl⟩]

/-- The match word of a row: OP in bits 31:28, every other bit 0. -/
def OpRow.matchWord (r : OpRow) : Word := r.op ++ (0 : BitVec 28)

/-- The mask of a row: the opcode field and the reserved bits of its format. -/
def OpRow.mask (r : OpRow) : Word := 0xF0000000 ||| r.format.resMask

/-- The word spells the row's command: it agrees with the match word on the mask (R100). -/
def OpRow.matchesWord (r : OpRow) (cmd : Word) : Bool := (cmd &&& r.mask) == r.matchWord

/-- The opcode field OP = CMD[31:28] of a command word (R90). -/
def opField (cmd : Word) : BitVec 4 := cmd.extractLsb' 28 4

/-- Why a command is ILLEGAL. -/
inductive DecodeError where
  /-- OP is in 0xD..0xF (R102). -/
  | reservedOpcode
  /-- A RES bit of the format is 1 (R101). -/
  | reservedBits
  /-- SET_PIXEL with ARG[31:24] not 0 (R103). -/
  | reservedArg
  /-- Fewer than the eight byte lanes of a command word and its operand word. -/
  | truncated
  deriving DecidableEq, Repr

/-- IDX (or POS) = sext_16(CMD[15:0]) (R94). -/
def idxField (cmd : Word) : Int := (cmd.extractLsb' 0 16).toInt

/-- The fields of a command word whose RES bits are 0, by opcode (R92 to R98); none for a reserved opcode. -/
def fieldsOf (cmd arg : Word) : Option Instr :=
  match (opField cmd).toNat with
  | 0x0 => some .nop
  | 0x1 => some (.init (cmd.extractLsb' 0 11).toNat (cmd.extractLsb' 11 7).toNat (cmd.extractLsb' 18 4).toNat arg)
  | 0x2 => some .close
  | 0x3 => some (.setPixel (idxField cmd) (arg.extractLsb' 16 8) (arg.extractLsb' 8 8) (arg.extractLsb' 0 8))
  | 0x4 => some (.getPixel (idxField cmd))
  | 0x5 => some (.setBrightness (idxField cmd) (cmd.extractLsb' 16 7).toNat)
  | 0x6 => some .showFrame
  | 0x7 => some .syncUp
  | 0x8 => some .syncDown
  | 0x9 => some (.rotate (idxField cmd))
  | 0xA => some .clear
  | 0xB => some (.encPrefix (cmd.extractLsb' 0 7).toNat)
  | 0xC => some (.encEndlen (cmd.extractLsb' 0 11).toNat)
  | _ => none

/-- The format of a command (R99). -/
def Instr.format : Instr → Format
  | .nop => .fn
  | .init _ _ _ _ => .fi
  | .close => .fn
  | .setPixel _ _ _ _ => .fx
  | .getPixel _ => .fx
  | .setBrightness _ _ => .fxb
  | .showFrame => .fn
  | .syncUp => .fn
  | .syncDown => .fn
  | .rotate _ => .fx
  | .clear => .fn
  | .encPrefix _ => .fb7
  | .encEndlen _ => .fl

/-- The bits ARG[31:24] that must be 0 in this command: only SET_PIXEL has any (R103). -/
def Instr.argResMask : Instr → Word
  | .setPixel _ _ _ _ => 0xFF000000
  | _ => 0

/-- The command that a command word and its operand word spell, or why the pair is ILLEGAL (R100 to R103, 41_lifecycle.md R133 check 2). -/
def decode (cmd arg : Word) : Except DecodeError Instr :=
  match fieldsOf cmd arg with
  | none => .error .reservedOpcode
  | some i =>
    if cmd &&& i.format.resMask ≠ 0 then .error .reservedBits
    else if arg &&& i.argResMask ≠ 0 then .error .reservedArg
    else .ok i

/-! ### Byte lanes (20_memory.md R65) -/

/-- Byte lane k of a 32-bit word: bits [8k+7:8k]. -/
def byteLane (v : Word) (k : Nat) : Byte := v.extractLsb' (8 * k) 8

/-- The four byte lanes of a word, lane 0 first. -/
def wordLanes (v : Word) : List Byte := [byteLane v 0, byteLane v 1, byteLane v 2, byteLane v 3]

/-- The word whose byte lanes 0 to 3 are the four bytes. -/
def wordOfLanes (b0 b1 b2 b3 : Byte) : Word := b3 ++ b2 ++ b1 ++ b0

/-- The command spelled by the byte lanes of a command word followed by those of its operand word; the rest is not part of it. -/
def decodeLanes : List Byte → Except DecodeError Instr
  | c0 :: c1 :: c2 :: c3 :: a0 :: a1 :: a2 :: a3 :: _ => decode (wordOfLanes c0 c1 c2 c3) (wordOfLanes a0 a1 a2 a3)
  | _ => .error .truncated

/-- The command word in bits numbered as spec/opcode_table.json numbers them: the first 32 bits. -/
def tableCommandWord (nbits w : Nat) : Word := BitVec.ofNat 32 (w % 2 ^ nbits)

/-- The operand word of the same numbering: the next 32 bits, 0 above nbits. -/
def tableArgWord (nbits w : Nat) : Word := BitVec.ofNat 32 (w % 2 ^ nbits / 2 ^ 32)

/-- The command the decoder reads from the bits of w: command word first, then operand word, each in its byte lanes. -/
def decodeTableWord (nbits w : Nat) : Option Instr :=
  (decodeLanes (wordLanes (tableCommandWord nbits w) ++ wordLanes (tableArgWord nbits w))).toOption

/-! ### The encoder (30_encoding.md R107) -/

/-- The command word of a command. -/
def Instr.commandWord : Instr → Word
  | .nop => 0x00000000
  | .init nleds ibri port _ => 0x1#4 ++ 0#6 ++ BitVec.ofNat 4 port ++ BitVec.ofNat 7 ibri ++ BitVec.ofNat 11 nleds
  | .close => 0x20000000
  | .setPixel idx _ _ _ => 0x3#4 ++ 0#12 ++ BitVec.ofInt 16 idx
  | .getPixel idx => 0x4#4 ++ 0#12 ++ BitVec.ofInt 16 idx
  | .setBrightness idx bri => 0x5#4 ++ 0#5 ++ BitVec.ofNat 7 bri ++ BitVec.ofInt 16 idx
  | .showFrame => 0x60000000
  | .syncUp => 0x70000000
  | .syncDown => 0x80000000
  | .rotate pos => 0x9#4 ++ 0#12 ++ BitVec.ofInt 16 pos
  | .clear => 0xA0000000
  | .encPrefix bri => 0xB#4 ++ 0#21 ++ BitVec.ofNat 7 bri
  | .encEndlen nl => 0xC#4 ++ 0#17 ++ BitVec.ofNat 11 nl

/-- The operand word of a command that reads ARG; none for the others (R91, R107). -/
def Instr.argWord : Instr → Option Word
  | .init _ _ _ clk => some clk
  | .setPixel _ red green blue => some (0#8 ++ red ++ green ++ blue)
  | _ => none

/-- The command word and the operand word of a command; the operand word is 0 where the command reads none. -/
def encode (i : Instr) : Word × Word := (i.commandWord, i.argWord.getD 0)

end Sys2Proof
end

