-- ==== Sys2Proof/Machine/State.lean ====
section
/-! DEFINITION. The state of the block (10_state.md), its environment's pending inputs and last answers, the records a model keeps
(60_exceptions.md R263, 43_serializer.md R190), and the state after hardware reset (10_state.md R50). -/

namespace Sys2Proof.Machine

/-- A byte buffer (FB or MB): (offset, byte) pairs, offsets strictly rising, no entry 0.  A byte not listed reads as 0 (log entry 8). -/
abbrev Memory := List Host.Cell

/-- The cause of a failure; NONE on success (60_exceptions.md R240).  Codes 9 to 15 have no constructor: they are unreachable (U15). -/
inductive Cause where
  | none | config | transport | index | range | illegal | notInit | divzero | halted
  deriving DecidableEq, Repr

/-- The stored fields of STATUS (10_state.md R24).  BUSY is not stored: it is 1 exactly when the phase is not IDLE (R39). -/
structure Status where
  /-- INIT (R26). -/
  init : Bool
  /-- OPEN (R27). -/
  opened : Bool
  /-- HALT (R28). -/
  halt : Bool
  /-- ERR (R29). -/
  err : Bool
  /-- ANYERR (R30). -/
  anyerr : Bool
  /-- OVR (R30). -/
  ovr : Bool
  /-- CAUSE (R29). -/
  cause : Cause
  /-- LASTOP (R29). -/
  lastop : BitVec 4
  deriving DecidableEq, Repr

/-- The direction of a SYNC copy (10_state.md R39). -/
inductive Direction where
  | up | down
  deriving DecidableEq, Repr

/-- The phase of the command sequencer (10_state.md R39). -/
inductive Phase where
  /-- No command. -/
  | idle
  /-- A command is latched in CMD_L and its first sequencer step has not yet run. -/
  | accepted
  /-- SHOW: `k` is the index of the next frame byte to send. -/
  | showing (k : Nat)
  /-- SYNC: `rest` is the set of byte offsets not yet copied, in rising order. -/
  | syncing (dir : Direction) (rest : List Nat)
  deriving DecidableEq, Repr

/-- The three signals of an output port (10_state.md R46). -/
structure Levels where
  sclk : Bool
  sdo : Bool
  csN : Bool
  deriving DecidableEq, Repr

/-- An idle port: SCLK 0, SDO 0, CS_n 1 (10_state.md R46). -/
def Levels.idle : Levels := ⟨false, false, true⟩

/-- One frame sent on a port: the whole bytes, and the leading bits of a byte that was cut off (43_serializer.md R190). -/
structure Frame where
  bytes : List Byte
  partialBits : List Bool
  deriving DecidableEq, Repr

/-- An output port: its signals now, the bytes of the frame in progress, and the frames already ended, oldest first (R46, R190). -/
structure Port where
  levels : Levels
  live : List Byte
  frames : List Frame
  deriving DecidableEq, Repr

/-- A port at reset: idle, nothing sent. -/
def Port.fresh : Port := ⟨Levels.idle, [], []⟩

/-- One entry of the fault log: the opcode field, the cause, and the `info` of `raise` (60_exceptions.md R249, R263). -/
structure FaultRecord where
  op : BitVec 4
  cause : Cause
  info : Option Int
  deriving DecidableEq, Repr

/-- One pending input of the block, one atomic event each (20_memory.md R66, R78).  Log entry 2. -/
inductive Input where
  /-- The host reads `n` bytes at byte offset `off` of the register window, MemRead(off, n) (20_memory.md R62). -/
  | hostRead (off n : Nat)
  /-- The host writes `v` as `n` bytes at byte offset `off`, MemWrite(off, n, v) (20_memory.md R62). -/
  | hostWrite (off n : Nat) (v : Word)
  /-- The mirror agent reads at `addr`: MB_REQ = 1, MB_WE = 0 (44_mirror.md R210). -/
  | mirrorRead (addr : MirrorAddr)
  /-- The mirror agent writes `data` at `addr`: MB_REQ = 1, MB_WE = 1 (44_mirror.md R210). -/
  | mirrorWrite (addr : MirrorAddr) (data : Byte)
  /-- The platform drives PORT_FAULT[port] to `level` (43_serializer.md R186). -/
  | portFault (port : PortIndex) (level : Bool)
  /-- No agent outside moves: the sequencer takes its step (70_reset_and_hazards.md R285). -/
  | turn
  deriving DecidableEq, Repr

/-- What the host bus answered to the last host access (20_memory.md R62 to R64). -/
inductive HostAnswer where
  /-- No access yet. -/
  | none
  /-- A read returned this value. -/
  | data (v : Word)
  /-- A write was taken (which covers a dropped CMD write and a write that is ignored). -/
  | written
  /-- A bus error: no value (R63). -/
  | busError
  deriving DecidableEq, Repr

/-- What the mirror port answered to the last mirror access: MB_RDATA and MB_ERR (44_mirror.md R210 to R212). -/
inductive MirrorAnswer where
  /-- No access yet. -/
  | none
  /-- An admitted read: MB_RDATA. -/
  | data (v : Byte)
  /-- An admitted write. -/
  | written
  /-- A refused access: MB_ERR = 1, no value (R212). -/
  | refused
  deriving DecidableEq, Repr

/-- Why the machine stops with a fault.  The block's own failures are causes in STATUS, not these. -/
inductive Fault where
  /-- Raised by the serializer's step in phase SHOWING(k) with k at or past the end of the frame: no rule produces that phase
  (43_serializer.md R176).  Safe: the model stops.  Log entry 13. -/
  | frameIndexPastEnd
  /-- Raised by a copy step in phase SYNCING with no offset left: no rule produces that phase (44_mirror.md R201).
  Safe: the model stops.  Log entry 13. -/
  | emptySyncSet
  deriving DecidableEq, Repr

/-- Why the model gives an instruction no meaning. -/
inductive Refusal where
  /-- Raised by an arm of exec for an instruction that is not modelled yet.  Safe.  No arm raises it now. -/
  | notModelled (mnemonic : String)
  deriving DecidableEq, Repr

/-- The state of the model. -/
structure State where
  /-- ARG (10_state.md R23). -/
  arg : Word
  /-- STATUS (R24). -/
  status : Status
  /-- RDATA (R32). -/
  rdata : Word
  /-- NLEDS, the pixel count N (R33). -/
  nleds : BitVec 11
  /-- PORTCFG (R34). -/
  portcfg : PortIndex
  /-- CLKHZ (R35). -/
  clkhz : Word
  /-- CMD_L (R38). -/
  cmdL : Word
  /-- ARG_L (R38). -/
  argL : Word
  /-- The sequencer's phase (R39). -/
  phase : Phase
  /-- The frame buffer (R40). -/
  fb : Memory
  /-- The mirror buffer (R42). -/
  mb : Memory
  /-- The output ports; a port at or past NUM_PORTS is absent and stays idle (R46, log entry 10). -/
  ports : Vector Port 16
  /-- The platform's PORT_FAULT inputs as they stand now, bit p for port p (R47, log entry 3). -/
  portFault : BitVec 16
  /-- The pending inputs, next first (log entry 2). -/
  inputs : List Input
  /-- The host bus's last answer (log entry 11). -/
  hostAnswer : HostAnswer
  /-- The mirror port's last answer (log entry 11). -/
  mirrorAnswer : MirrorAnswer
  /-- The fault log, oldest first (60_exceptions.md R263). -/
  faultLog : List FaultRecord
  /-- An access was refused in this run (20_memory.md R63, 44_mirror.md R212). -/
  refusalMark : Bool
  /-- How many free values have been drawn: the model's own field (log entry 4). -/
  draws : Nat
  deriving DecidableEq, Repr

/-- STATUS after hardware reset: every field 0 (R50). -/
def Status.reset : Status := ⟨false, false, false, false, false, false, .none, 0⟩

/-- The state right after hardware reset (10_state.md R50, 70_reset_and_hazards.md R272, R295). -/
def State.reset : State where
  arg := 0
  status := Status.reset
  rdata := 0
  nleds := 0
  portcfg := 0
  clkhz := 0
  cmdL := 0
  argL := 0
  phase := .idle
  fb := []
  mb := []
  ports := Vector.replicate 16 Port.fresh
  portFault := 0
  inputs := []
  hostAnswer := .none
  mirrorAnswer := .none
  faultLog := []
  refusalMark := false
  draws := 0

end Sys2Proof.Machine
end

