-- ==== Sys2Proof/Machine/Flags.lean ====
section
/-! DEFINITION. The STATUS register: cause codes, the word the host reads, what ends of commands write to it, and its W1C bits
(10_state.md R24 to R30, 60_exceptions.md R240, R250). -/

namespace Sys2Proof.Machine

/-- The cause code (60_exceptions.md R240). -/
def Cause.code : Cause → BitVec 4
  | .none => 0
  | .config => 1
  | .transport => 2
  | .index => 3
  | .range => 4
  | .illegal => 5
  | .notInit => 6
  | .divzero => 7
  | .halted => 8

/-- The 32-bit STATUS word for a given BUSY (R24): reserved bits read 0. -/
def Status.word (st : Status) (busy : Bool) : Word :=
  0#16 ++ st.lastop ++ st.cause.code ++ 0#1 ++ BitVec.ofBool st.ovr ++ BitVec.ofBool st.anyerr ++ BitVec.ofBool st.err ++
    BitVec.ofBool st.halt ++ BitVec.ofBool st.opened ++ BitVec.ofBool st.init ++ BitVec.ofBool busy

/-- A command with opcode field `op` completes: ERR 0, CAUSE 0, LASTOP (R29). -/
def Status.succeed (st : Status) (op : BitVec 4) : Status := { st with err := false, cause := .none, lastop := op }

/-- A command with opcode field `op` fails with `c`: ERR 1, CAUSE, LASTOP (R29), ANYERR 1 (R30). -/
def Status.fail (st : Status) (op : BitVec 4) (c : Cause) : Status := { st with err := true, cause := c, anyerr := true, lastop := op }

/-- A fatal failure: HALT 1, OPEN 0 (60_exceptions.md R252). -/
def Status.halted (st : Status) : Status := { st with halt := true, opened := false }

/-- A host write of `v` to STATUS: bit 5 clears ANYERR, bit 6 clears OVR, nothing else (R24, R30). -/
def Status.clearW1C (st : Status) (v : Word) : Status :=
  { st with anyerr := st.anyerr && !v.getLsbD 5, ovr := st.ovr && !v.getLsbD 6 }

/-- A CMD write was dropped: OVR 1 (R30, 41_lifecycle.md R131). -/
def Status.overrun (st : Status) : Status := { st with ovr := true }

end Sys2Proof.Machine
end

