-- ==== Sys2Proof/Config.lean ====
section
/-! DEFINITION. The implementation parameters of 00_scope.md section 4: the fixed sizes, the OPEN parameters and the free values.
An OPEN parameter or a free value is an opaque constant with no body, so a claim holds for every value of it (R3). -/

namespace Sys2Proof.Config

/-- MAX_LEDS, the largest accepted pixel count (R2). -/
def maxLeds : Nat := 1024

/-- BYTES_PER_PIXEL (00_scope.md section 4). -/
def bytesPerPixel : Nat := 4

/-- BRI_MAX, the largest brightness input (40_encoder.md R112). -/
def briMax : Nat := 100

/-- The free part of NUM_PORTS. Log entry 7. -/
opaque extraPorts : Fin 16

/-- NUM_PORTS: an OPEN parameter, an integer 1..16 (R3, D14). DESIGN CHOICE, log entry 7: an opaque constant. -/
def numPorts : Nat := extraPorts.val + 1

/-- The free part of PORT_MAP: a way to move the (bus, device) pairs about without losing one. Log entry 7. -/
opaque portPlaces : Equiv.Perm (Nat × Nat)

/-- PORT_MAP: an OPEN parameter, any injective map from the port indices to the platform's (bus, device) pairs (R3, 41_lifecycle.md R138,
92_eei_decisions.md D14). DESIGN CHOICE, log entry 7: buses and devices are numbered by Nat. -/
def portMap (port : PortIndex) : Nat × Nat := portPlaces (0, port.toNat)

/-- HOST_BASE: an OPEN parameter, the base address of the register window (20_memory.md R61). Log entry 7. -/
opaque hostBase : Nat

/-- The free part of F_SCLK: a numerator and a denominator for each requested maximum. Log entry 7. -/
opaque sclkChoice : Word → Nat × Nat

/-- F_SCLK: the serial clock in Hz for a requested maximum of hz, any function with 0 < F_SCLK(hz) ≤ hz for hz > 0
(41_lifecycle.md R142). DESIGN CHOICE, log entry 7: the spec names no codomain; the model takes the rational numbers of Hz, whole or not,
and gives no irrational one. -/
def fSclk (hz : Word) : ℚ :=
  hz.toNat * ((((sclkChoice hz).1 % ((sclkChoice hz).2 + 1) + 1 : Nat) : ℚ) / (((sclkChoice hz).2 + 1 : Nat) : ℚ))

/-- MIRROR_INIT: the byte that draw number n puts into mirror offset j at an INIT (41_lifecycle.md R137). A FREE VALUE, log entry 4. -/
opaque mirrorInit (n j : Nat) : Byte

/-- SYNC_ORDER: the choice made at draw number n among the offsets still to copy (44_mirror.md R201). A FREE VALUE, log entry 5. -/
opaque syncChoice (n : Nat) : Nat

/-- How many leading bits (0 to 7) of the byte in progress are sent when a frame is cut off at draw number n
(43_serializer.md R186). A FREE VALUE, log entry 6. -/
opaque partialBits (n : Nat) : Fin 8

end Sys2Proof.Config
end

