-- ==== Sys2Proof/Machine/Operands.lean ====
section
/-! DEFINITION. The operand forms: pixel indices and channels (20_memory.md R68, 42_pixel.md R152), and the colour packing
(30_encoding.md R96). -/

namespace Sys2Proof.Machine

/-- N, the pixel count of the present configuration (10_state.md R33). -/
def State.n (s : State) : Nat := s.nleds.toNat

/-- An index operand names a pixel: 0 ≤ IDX < N (42_pixel.md R150, R154, R157). -/
def State.indexInRange (s : State) (idx : Int) : Bool := decide (0 ≤ idx ∧ idx < s.n)

/-- The frame-buffer offset of channel k of pixel i: 4*i + k (20_memory.md R68). -/
def channelOffset (i k : Nat) : Nat := Config.bytesPerPixel * i + k

/-- Channel numbers (10_state.md R41): prefix 0, blue 1, green 2, red 3. -/
def chPrefix : Nat := 0

/-- Channel 1: blue. -/
def chBlue : Nat := 1

/-- Channel 2: green. -/
def chGreen : Nat := 2

/-- Channel 3: red. -/
def chRed : Nat := 3

/-- The architectural length of FB and MB in bytes: 4N (10_state.md R40, R42). -/
def bufferLength (n : Nat) : Nat := Config.bytesPerPixel * n

/-- A colour packed as the host sees it: 8 zero bits, red, green, blue (30_encoding.md R96). -/
def packColour (red green blue : Byte) : Word := 0#8 ++ red ++ green ++ blue

end Sys2Proof.Machine
end

