-- ==== Sys2Proof/Machine/Units.lean ====
section
/-! DEFINITION. The three combinational units of the protocol encoder (40_encoder.md R110 to R119): the brightness quantizer with the
prefix encoder, the start-frame generator, and the end-frame padding calculator.  They read only their operands (R119). -/

namespace Sys2Proof.Machine

/-- Q(b) = (31*b + 50) div 100, the quantized brightness of b in 0..100 (R110). -/
def quantize (b : Nat) : Nat := (31 * b + 50) / 100

/-- P(b) = (Q(b) & 0x1F) | 0xE0, the prefix byte (R113). -/
def prefixByte (b : Nat) : Byte := (BitVec.ofNat 8 (quantize b) &&& 0x1F) ||| 0xE0

/-- ceil_div(a, n) = (a + n - 1) div n, for n > 0 (00_scope.md, notation). -/
def ceilDiv (a n : Nat) : Nat := (a + n - 1) / n

/-- START: four zero bytes (R114). -/
def startFrame : List Byte := [0, 0, 0, 0]

/-- ENDLEN(n) = ceil_div(n, 16) (R115). -/
def endLength (n : Nat) : Nat := ceilDiv n 16

/-- END(n): ENDLEN(n) zero bytes (R115). -/
def endFrame (n : Nat) : List Byte := List.replicate (endLength n) 0

/-- FLEN(N) = 4 + 4*N + ceil_div(N, 16) (R117). -/
def frameLength (n : Nat) : Nat := 4 + 4 * n + ceilDiv n 16

/-- emod(a, n), the Euclidean remainder in 0..n-1 for n > 0 (00_scope.md, notation; 45_buffer_ops.md R222). -/
def euclidMod (a : Int) (n : Nat) : Nat := (a.emod n).toNat

end Sys2Proof.Machine
end

