-- ==== Sys2Proof/Machine/Ops.lean ====
section
/-! DEFINITION. The named operations that the commands share: byte buffers, ports, free values, the end of a command
(complete, raise), the checks before a body, and hardware reset. -/

namespace Sys2Proof.Machine

/-! ### Byte buffers -/

/-- The byte at offset `a`; a byte not listed reads as 0 (log entry 8). -/
def Memory.read : Memory → Nat → Byte
  | [], _ => 0
  | (b, v) :: m, a => if b = a then v else Memory.read m a

/-- Put an entry in its place by rising offset. -/
def Memory.insert : Memory → Nat → Byte → Memory
  | [], a, v => [(a, v)]
  | (b, w) :: m, a, v => if a < b then (a, v) :: (b, w) :: m else (b, w) :: Memory.insert m a v

/-- The buffer without its entry at offset `a`. -/
def Memory.without (m : Memory) (a : Nat) : Memory := m.filter (fun c => c.1 != a)

/-- Write byte `v` at offset `a`; writing 0 removes the entry. -/
def Memory.write (m : Memory) (a : Nat) (v : Byte) : Memory :=
  if v = 0 then Memory.without m a else Memory.insert (Memory.without m a) a v

/-- The entries of the bytes `f a`, `f (a+1)`, ..., `count` of them. -/
def Memory.tabulateFrom (f : Nat → Byte) : Nat → Nat → Memory
  | _, 0 => []
  | a, count + 1 =>
    if f a = 0 then Memory.tabulateFrom f (a + 1) count else (a, f a) :: Memory.tabulateFrom f (a + 1) count

/-- The buffer whose bytes 0 to len-1 are `f 0` to `f (len-1)`. -/
def Memory.tabulate (len : Nat) (f : Nat → Byte) : Memory := Memory.tabulateFrom f 0 len

/-- The bytes 0 to len-1 of a buffer in order. -/
def Memory.bytes (m : Memory) (len : Nat) : List Byte := (List.range len).map (Memory.read m)

/-- The canonical form: offsets strictly rising, no entry 0. -/
abbrev Memory.wf (m : Memory) : Prop := List.Pairwise (fun c d : Host.Cell => c.1 < d.1) m ∧ ∀ c ∈ m, c.2 ≠ 0

/-- Every listed offset is below `len`. -/
abbrev Memory.within (m : Memory) (len : Nat) : Prop := ∀ c ∈ m, c.1 < len

/-! ### Views of the registers -/

/-- BUSY is 1 exactly when the phase is not IDLE (10_state.md R25, R39). -/
def State.busy (s : State) : Bool := s.phase != .idle

/-- The STATUS word the host reads (10_state.md R24). -/
def State.statusWord (s : State) : Word := s.status.word s.busy

/-- FRAMELEN: FLEN(N) when INIT = 1, else 0; 13 bits (10_state.md R36). -/
def State.frameLenReg (s : State) : BitVec 13 := if s.status.init then BitVec.ofNat 13 (frameLength s.n) else 0

/-- The serial clock of the selected port in Hz, F_SCLK(CLKHZ) (41_lifecycle.md R142). -/
def State.serialClock (s : State) : ℚ := Config.fSclk s.clkhz

/-- The (bus, device) pair of the open transport, PORT_MAP(PORTCFG) (41_lifecycle.md R138); none when OPEN = 0. -/
def State.openTransport (s : State) : Option (Nat × Nat) := if s.status.opened then some (Config.portMap s.portcfg) else none

/-- The present level of PORT_FAULT[port] (10_state.md R47). -/
def State.faultAt (s : State) (port : Nat) : Bool := s.portFault.getLsbD port

/-- A byte of FB. -/
def State.fbByte (s : State) (j : Nat) : Byte := Memory.read s.fb j

/-- A byte of MB. -/
def State.mbByte (s : State) (j : Nat) : Byte := Memory.read s.mb j

/-- FB[j] <- v. -/
def State.writeFb (s : State) (j : Nat) (v : Byte) : State := { s with fb := Memory.write s.fb j v }

/-- MB[j] <- v. -/
def State.writeMb (s : State) (j : Nat) (v : Byte) : State := { s with mb := Memory.write s.mb j v }

/-! ### Ports -/

/-- The bits of a byte in the order they are sent: bit 7 first (20_memory.md R70). -/
def bitsMsbFirst (b : Byte) : List Bool :=
  [b.getLsbD 7, b.getLsbD 6, b.getLsbD 5, b.getLsbD 4, b.getLsbD 3, b.getLsbD 2, b.getLsbD 1, b.getLsbD 0]

/-- The signals of one bit period while CS_n = 0: SDO set with SCLK low, SCLK rises, SCLK falls (43_serializer.md R183). -/
def bitWave (b : Bool) : List Levels := [⟨false, b, false⟩, ⟨true, b, false⟩, ⟨false, b, false⟩]

/-- The signals of Emit(p, b): eight bit periods (43_serializer.md R183). -/
def emitWave (b : Byte) : List Levels := (bitsMsbFirst b).flatMap bitWave

/-- The port leaves idle: CS_n <- 0, a frame begins (43_serializer.md R176, R190). -/
def Port.select (p : Port) : Port := { p with levels := { p.levels with csN := false }, live := [] }

/-- Emit(p, b): the byte joins the frame in progress and the signals end as the last bit period leaves them (43_serializer.md R183). -/
def Port.emit (p : Port) (b : Byte) : Port := { p with levels := (emitWave b).getLastD p.levels, live := p.live ++ [b] }

/-- The port returns to idle; a frame in progress ends there, with the leading bits `cut` of a byte that was cut off
(10_state.md R46, 43_serializer.md R182, R186, R190). -/
def Port.release (p : Port) (cut : List Bool) : Port :=
  { levels := Levels.idle, live := [], frames := if p.levels.csN then p.frames else p.frames ++ [⟨p.live, cut⟩] }

/-- The port with index `p`. -/
def State.port (s : State) (p : PortIndex) : Port := s.ports[p.toNat]'(p.isLt)

/-- The state with `f` applied to port `p` alone. -/
def State.modifyPort (s : State) (p : PortIndex) (f : Port → Port) : State :=
  { s with ports := s.ports.set p.toNat (f (s.port p)) p.isLt }

/-- The selected port PORTCFG returns to idle (41_lifecycle.md R139, R140; 60_exceptions.md R252). -/
def State.releasePort (s : State) (cut : List Bool) : State := s.modifyPort s.portcfg (fun p => p.release cut)

/-! ### Free values -/

/-- Draw number `draws` has been used (log entry 4). -/
def State.drawn (s : State) : State := { s with draws := s.draws + 1 }

/-- The leading bits of `b` that are sent when it is cut off: 0 to 7 of them, a FREE VALUE (43_serializer.md R186, log entry 6). -/
def State.cutBits (s : State) (b : Byte) : List Bool := (bitsMsbFirst b).take (Config.partialBits s.draws).val

/-! ### Phases and answers -/

/-- The sequencer enters phase `p` (10_state.md R39). -/
def State.enter (s : State) (p : Phase) : State := { s with phase := p }

/-- The host bus answers (20_memory.md R62 to R64). -/
def State.answerHost (s : State) (a : HostAnswer) : State := { s with hostAnswer := a }

/-- The mirror port answers (44_mirror.md R210). -/
def State.answerMirror (s : State) (a : MirrorAnswer) : State := { s with mirrorAnswer := a }

/-- An access was refused: the mark that stays for the rest of the run (20_memory.md R63, 44_mirror.md R212). -/
def State.mark (s : State) : State := { s with refusalMark := true }

/-! ### The end of a command -/

/-- `complete(rdata?)` (41_lifecycle.md R132): success, in one step. -/
def complete (rdata : Option Word) (s : State) : State :=
  { s with rdata := rdata.getD s.rdata, status := s.status.succeed (opField s.cmdL), phase := .idle }

/-- A fatal failure sets HALT, clears OPEN and returns the selected port to idle (60_exceptions.md R252). -/
def haltBlock (s : State) : State :=
  let s := s.releasePort []
  { s with status := s.status.halted }

/-- `raise <Cause>(info)` (60_exceptions.md R250), the one failure entry: ERR, CAUSE, ANYERR, LASTOP, phase IDLE, one fault log entry
(R263), and for a fatal cause what R252 says. -/
def raise (c : Cause) (fatal : Bool) (info : Option Int) (s : State) : State :=
  let s := if fatal then haltBlock s else s
  { s with
    status := s.status.fail (opField s.cmdL) c
    phase := .idle
    faultLog := s.faultLog ++ [⟨opField s.cmdL, c, info⟩] }

/-- The opcode field of CMD_L as the `info` of ILLEGAL and NOT_INIT (41_lifecycle.md R133). -/
def opInfo (s : State) : Option Int := some (opField s.cmdL).toNat

/-- Checks 1 and 3 of 41_lifecycle.md R133 around a command's body: HALTED, then NOT_INIT for a command that needs INIT = 1.
Check 2, ILLEGAL, stands between them only for words that decode to no command (log entry 14). -/
def checked (needsInit : Bool) (s : State) (body : State → State) : Host.Outcome State Fault Refusal :=
  if s.status.halt then .next (raise .halted false none s)
  else if needsInit && !s.status.init then .next (raise .notInit false (opInfo s) s)
  else .next (body s)

/-- The first sequencer step of a command word that is ILLEGAL: HALTED comes first (41_lifecycle.md R133, 60_exceptions.md R251). -/
def refuseIllegal (s : State) : State :=
  if s.status.halt then raise .halted false none s else raise .illegal false (opInfo s) s

end Sys2Proof.Machine
end

