-- ==== Sys2Proof/Machine/BufferOps.lean ====
section
/-! DEFINITION. The whole-buffer commands ROTATE and CLEAR (45_buffer_ops.md R220 to R227). -/

namespace Sys2Proof.Machine

/-- FB[cutoff:] ++ FB[:cutoff] over the 4N architectural bytes (R220). -/
def rotatedFb (fb : Memory) (n cutoff : Nat) : Memory :=
  Memory.tabulate (bufferLength n) fun j => Memory.read fb ((j + cutoff) % bufferLength n)

/-- The byte distance of ROTATE: cutoff = 4 * emod(POS, N) (R220, R222). -/
def rotateCutoff (pos : Int) (n : Nat) : Nat := Config.bytesPerPixel * euclidMod pos n

/-- ROTATE (R220): DIVZERO when N = 0 (R223), else the rotation, in one step. -/
def execRotate (pos : Int) (s : State) : Host.Outcome State Fault Refusal :=
  checked true s fun s =>
    if s.n = 0 then raise .divzero false none s
    else complete none { s with fb := rotatedFb s.fb s.n (rotateCutoff pos s.n) }

/-- FB with every colour byte 0 and every prefix byte kept (R226, R227). -/
def clearedFb (fb : Memory) (n : Nat) : Memory :=
  Memory.tabulate (bufferLength n) fun j => if j % Config.bytesPerPixel = chPrefix then Memory.read fb j else 0

/-- CLEAR (R226). -/
def execClear (s : State) : Host.Outcome State Fault Refusal :=
  checked true s fun s => complete none { s with fb := clearedFb s.fb s.n }

end Sys2Proof.Machine
end

