-- ==== Sys2Proof/Machine/Encoder.lean ====
section
/-! DEFINITION. The query commands ENC_PREFIX and ENC_ENDLEN (40_encoder.md R120, R122). -/

namespace Sys2Proof.Machine

/-- ENC_PREFIX (R120): RANGE above 100, else RDATA = zext_32(P(BRI)). -/
def execEncPrefix (bri : Nat) (s : State) : Host.Outcome State Fault Refusal :=
  checked false s fun s =>
    if bri > Config.briMax then raise .range false (some bri) s
    else complete (some ((prefixByte bri).setWidth 32)) s

/-- ENC_ENDLEN (R122): RDATA = zext_32(ENDLEN(NL)). -/
def execEncEndlen (nl : Nat) (s : State) : Host.Outcome State Fault Refusal :=
  checked false s fun s => complete (some (BitVec.ofNat 32 (endLength nl))) s

end Sys2Proof.Machine
end

