-- ==== Sys2Proof/Machine/Lifecycle.lean ====
section
/-! DEFINITION. NOP, INIT and CLOSE (41_lifecycle.md R134 to R141). -/

namespace Sys2Proof.Machine

/-- NOP (R134): complete. -/
def execNop (s : State) : Host.Outcome State Fault Refusal := checked false s fun s => complete none s

/-- If the transport is open, its port returns to idle and OPEN <- 0 (R139, R140). -/
def releaseTransport (s : State) : State :=
  if s.status.opened then
    let s := s.releasePort []
    { s with status := { s.status with opened := false } }
  else s

/-- fail_init (R141): INIT, OPEN, N, PORTCFG and CLKHZ <- 0, and a fatal failure with cause `c`. -/
def failInit (c : Cause) (info : Int) (s : State) : State :=
  raise c true (some info)
    { s with status := { s.status with init := false, opened := false }, nleds := 0, portcfg := 0, clkhz := 0 }

/-- The transport of port `port` does not open: no such port, no clock, or the platform reports a fault (R138). -/
def openFails (port : Nat) (clk : Word) (s : State) : Bool :=
  decide (clk = 0) || s.faultAt port || decide (Config.numPorts ≤ port)

/-- FB after a successful INIT: every pixel's prefix byte is P(IBRI), its colour bytes 0 (R137). -/
def initialFb (nleds ibri : Nat) : Memory :=
  Memory.tabulate (bufferLength nleds) fun j => if j % Config.bytesPerPixel = chPrefix then prefixByte ibri else 0

/-- The success of INIT (R137, R138): N, PORTCFG, CLKHZ, FB, a fresh MB whose bytes are FREE VALUES (MIRROR_INIT, log entry 4),
INIT and OPEN. -/
def construct (nleds ibri port : Nat) (clk : Word) (s : State) : State :=
  { s with
    nleds := BitVec.ofNat 11 nleds
    portcfg := BitVec.ofNat 4 port
    clkhz := clk
    fb := initialFb nleds ibri
    mb := Memory.tabulate (bufferLength nleds) (Config.mirrorInit s.draws)
    status := { s.status with init := true, opened := true }
    draws := s.draws + 1 }

/-- The body of INIT (R135): release (R139), then CONFIG (R136), TRANSPORT (R138), RANGE (40_encoder.md R112), else construct. -/
def initBody (nleds ibri port : Nat) (clk : Word) (s : State) : State :=
  let s := releaseTransport s
  if nleds > Config.maxLeds then failInit .config nleds s
  else if openFails port clk s then failInit .transport port s
  else if ibri > Config.briMax then failInit .range ibri s
  else complete none (construct nleds ibri port clk s)

/-- INIT (R135). -/
def execInit (nleds ibri port : Nat) (clk : Word) (s : State) : Host.Outcome State Fault Refusal :=
  checked false s (initBody nleds ibri port clk)

/-- CLOSE (R140): the port returns to idle and OPEN <- 0; nothing else is lost. -/
def execClose (s : State) : Host.Outcome State Fault Refusal := checked true s fun s => complete none (releaseTransport s)

end Sys2Proof.Machine
end

