-- ==== Sys2Proof/Machine/Mirror.lean ====
section
/-! DEFINITION. SYNC_UP, SYNC_DOWN, their copy steps, and the mirror port (44_mirror.md R200 to R215). -/

namespace Sys2Proof.Machine

/-- The first step of a SYNC command (R201): phase SYNCING(dir, all offsets), or complete at once when N = 0. -/
def startSync (dir : Direction) (s : State) : State :=
  if s.n = 0 then complete none s else s.enter (.syncing dir (List.range (bufferLength s.n)))

/-- SYNC_UP (R200). -/
def execSyncUp (s : State) : Host.Outcome State Fault Refusal := checked true s (startSync .up)

/-- SYNC_DOWN (R205). -/
def execSyncDown (s : State) : Host.Outcome State Fault Refusal := checked true s (startSync .down)

/-- The offset copied next: one of those left, chosen by the FREE VALUE SYNC_ORDER (R201, log entry 5). -/
def syncPick (rest : List Nat) (draw : Nat) : Nat := rest.getD (Config.syncChoice draw % rest.length) 0

/-- Copy byte j (R201): MB[j] <- FB[j] when dir = UP, FB[j] <- MB[j] when dir = DOWN. -/
def copyByte (dir : Direction) (j : Nat) (s : State) : State :=
  match dir with
  | .up => s.writeMb j (s.fbByte j)
  | .down => s.writeFb j (s.mbByte j)

/-- One copy step of byte j in phase SYNCING(dir, rest) (R201); the step that empties the set completes the command. -/
def copyStep (dir : Direction) (rest : List Nat) (j : Nat) (s : State) : State :=
  let left := rest.filter (fun i => i != j)
  let s := copyByte dir j s
  if left = [] then complete none s else s.enter (.syncing dir left)

/-- One step in phase SYNCING(dir, rest): the copy step of the offset chosen. -/
def syncStep (dir : Direction) (rest : List Nat) (s : State) : Host.Outcome State Fault Refusal :=
  if rest = [] then .fault .emptySyncSet else .next (copyStep dir rest (syncPick rest s.draws) s.drawn)

/-! ### The mirror port -/

/-- A mirror access is admitted exactly when INIT = 1 and MB_ADDR < 4N (R212). -/
def mirrorAdmits (s : State) (addr : MirrorAddr) : Bool := s.status.init && decide (addr.toNat < bufferLength s.n)

/-- A refused mirror access: MB_ERR = 1, no value, and the mark (R212). -/
def refuseMirror (s : State) : State := (s.answerMirror .refused).mark

/-- A mirror-port read (R211). -/
def mirrorRead (addr : MirrorAddr) (s : State) : State :=
  if mirrorAdmits s addr then s.answerMirror (.data (s.mbByte addr.toNat)) else refuseMirror s

/-- A mirror-port write (R211). -/
def mirrorWrite (addr : MirrorAddr) (data : Byte) (s : State) : State :=
  if mirrorAdmits s addr then (s.writeMb addr.toNat data).answerMirror .written else refuseMirror s

/-- The output MB_ERR (R210). -/
def State.mbErr (s : State) : Bool := s.mirrorAnswer == .refused

/-- The output MB_RDATA, where it is defined (R211, R212). -/
def State.mbRdata (s : State) : Option Byte :=
  match s.mirrorAnswer with
  | .data v => some v
  | _ => none

end Sys2Proof.Machine
end

