-- ==== Sys2Proof/Machine/Pixel.lean ====
section
/-! DEFINITION. The pixel commands SET_PIXEL, GET_PIXEL and SET_BRIGHTNESS (42_pixel.md R150 to R159). -/

namespace Sys2Proof.Machine

/-- The three colour bytes of pixel `i` (R150, R151): blue at +1, green at +2, red at +3. -/
def writeColour (i : Nat) (red green blue : Byte) (s : State) : State :=
  ((s.writeFb (channelOffset i chBlue) blue).writeFb (channelOffset i chGreen) green).writeFb (channelOffset i chRed) red

/-- The colour of pixel `i` as RDATA packs it (R155). -/
def readColour (i : Nat) (s : State) : Word :=
  packColour (s.fbByte (channelOffset i chRed)) (s.fbByte (channelOffset i chGreen)) (s.fbByte (channelOffset i chBlue))

/-- SET_PIXEL (R150): the colour of a pixel in range; a silent no-op otherwise (R152). -/
def execSetPixel (idx : Int) (red green blue : Byte) (s : State) : Host.Outcome State Fault Refusal :=
  checked true s fun s =>
    complete none (if s.indexInRange idx then writeColour idx.toNat red green blue s else s)

/-- GET_PIXEL (R154): the colour of a pixel in range to RDATA, else INDEX (R156). -/
def execGetPixel (idx : Int) (s : State) : Host.Outcome State Fault Refusal :=
  checked true s fun s =>
    if s.indexInRange idx then complete (some (readColour idx.toNat s)) s else raise .index false (some idx) s

/-- SET_BRIGHTNESS (R157): RANGE first, then the prefix byte of a pixel in range; a silent no-op otherwise (R159). -/
def execSetBrightness (idx : Int) (bri : Nat) (s : State) : Host.Outcome State Fault Refusal :=
  checked true s fun s =>
    if bri > Config.briMax then raise .range false (some bri) s
    else complete none (if s.indexInRange idx then s.writeFb (channelOffset idx.toNat chPrefix) (prefixByte bri) else s)

end Sys2Proof.Machine
end

