-- ==== Sys2Proof/Machine/Serializer.lean ====
section
/-! DEFINITION. SHOW, the frame serializer and the port waveforms (43_serializer.md R170 to R190), and hardware reset, which can cut a
frame off (70_reset_and_hazards.md R270). -/

namespace Sys2Proof.Machine

/-- FRAME(FB, N) (40_encoder.md R116). -/
def frame (fb : Memory) (n : Nat) : List Byte := startFrame ++ Memory.bytes fb (bufferLength n) ++ endFrame n

/-- FRAMEBYTE(k) for the current N and FB (R177). -/
def State.frameByte (s : State) (k : Nat) : Byte :=
  if k < 4 then 0 else if k < 4 + bufferLength s.n then s.fbByte (k - 4) else 0

/-- The port index as the `info` of TRANSPORT (R170). -/
def portInfo (s : State) : Option Int := some s.portcfg.toNat

/-- SHOW (R170, R176): TRANSPORT when OPEN = 0 (R172); else CS_n of the selected port <- 0 and phase SHOWING(0). -/
def execShowFrame (s : State) : Host.Outcome State Fault Refusal :=
  checked true s fun s =>
    if s.status.opened then (s.modifyPort s.portcfg Port.select).enter (.showing 0)
    else raise .transport true (portInfo s) s

/-- transport_fail(p, k) (R186, R187): a free number of leading bits of FRAMEBYTE(k), then the port is idle and TRANSPORT is raised. -/
def transportFail (k : Nat) (s : State) : State :=
  let s' := (s.releasePort (s.cutBits (s.frameByte k))).drawn
  raise .transport true (portInfo s) s'

/-- One whole byte on the selected port (R176). -/
def sendByte (k : Nat) (s : State) : State := s.modifyPort s.portcfg (fun p => p.emit (s.frameByte k))

/-- One serializer step in phase SHOWING(k) (R176): PORT_FAULT first; then byte k; the last byte's step sets CS_n <- 1 and completes. -/
def serializerStep (k : Nat) (s : State) : Host.Outcome State Fault Refusal :=
  if k < frameLength s.n then
    if s.faultAt s.portcfg.toNat then .next (transportFail k s)
    else if k + 1 = frameLength s.n then .next (complete none ((sendByte k s).releasePort []))
    else .next ((sendByte k s).enter (.showing (k + 1)))
  else .fault .frameIndexPastEnd

/-! ### What can be seen on a port -/

/-- The bits a frame put on SDO, in order (R183, R190). -/
def Frame.bits (f : Frame) : List Bool := f.bytes.flatMap bitsMsbFirst ++ f.partialBits

/-- The signals of a port over one frame, from CS_n's fall to its rise (R179, R183). -/
def Frame.wave (f : Frame) : List Levels := ⟨false, false, false⟩ :: (f.bits.flatMap bitWave ++ [Levels.idle])

/-- What a receiving device samples: SDO at each rising edge of SCLK, `prev` being the SCLK level before (R183). -/
def samples (prev : Bool) : List Levels → List Bool
  | [] => []
  | l :: w => if !prev && l.sclk then l.sdo :: samples l.sclk w else samples l.sclk w

/-! ### Hardware reset -/

/-- The leading bits of the byte in progress when a reset cuts a frame off at a bit boundary: a FREE VALUE (R270, log entry 12). -/
def State.resetCut (s : State) : List Bool :=
  match s.phase with
  | .showing k => if k < frameLength s.n then s.cutBits (s.frameByte k) else []
  | _ => []

/-- Asserting RST (70_reset_and_hazards.md R270): every piece of the block's state takes its reset value, a command in progress is
abandoned with nothing recorded, every port is idle.  No step takes this operation: R272 gives the platform no move to assert RST after
the launch.  DESIGN CHOICE, log entry 12: the PORT_FAULT levels, the pending inputs and the model's records stay, and the last answers of
the host bus and of the mirror port (so MB_ERR and MB_RDATA) are cleared, of which the spec says nothing. -/
def assertRst (s : State) : State :=
  { State.reset with
    ports := s.ports.map fun p => p.release s.resetCut
    portFault := s.portFault
    inputs := s.inputs
    faultLog := s.faultLog
    refusalMark := s.refusalMark
    draws := s.draws + 1 }

end Sys2Proof.Machine
end

