-- ==== Sys2Proof/Machine/Dispatch.lean ====
section
/-! DEFINITION. One arm per command: its meaning is its first sequencer step (41_lifecycle.md R133). -/

namespace Sys2Proof.Machine

/-- The first sequencer step of a command: the checks of R133 and the body. -/
def exec (i : Instr) (s : State) : Host.Outcome State Fault Refusal :=
  match i with
  | .nop => Sys2Proof.Machine.execNop s
  | .init nleds ibri port clk => Sys2Proof.Machine.execInit nleds ibri port clk s
  | .close => Sys2Proof.Machine.execClose s
  | .setPixel idx red green blue => Sys2Proof.Machine.execSetPixel idx red green blue s
  | .getPixel idx => Sys2Proof.Machine.execGetPixel idx s
  | .setBrightness idx bri => Sys2Proof.Machine.execSetBrightness idx bri s
  | .showFrame => Sys2Proof.Machine.execShowFrame s
  | .syncUp => Sys2Proof.Machine.execSyncUp s
  | .syncDown => Sys2Proof.Machine.execSyncDown s
  | .rotate pos => Sys2Proof.Machine.execRotate pos s
  | .clear => Sys2Proof.Machine.execClear s
  | .encPrefix bri => Sys2Proof.Machine.execEncPrefix bri s
  | .encEndlen nl => Sys2Proof.Machine.execEncEndlen nl s

end Sys2Proof.Machine
end

