-- ==== Sys2Proof/Machine/HostBus.lean ====
section
/-! DEFINITION. The host register window (10_state.md R21 to R37, 20_memory.md R62 to R67) and acceptance of commands (41_lifecycle.md R130,
R131). -/

namespace Sys2Proof.Machine

/-- The eight registers (R21). -/
inductive Reg where
  | cmd | arg | status | rdata | nleds | portcfg | clkhz | framelen
  deriving DecidableEq, Repr

/-- The register at a byte offset of the window (R21); none elsewhere (20_memory.md R63, R64). -/
def regAt (off : Nat) : Option Reg :=
  match off with
  | 0x00 => some .cmd
  | 0x04 => some .arg
  | 0x08 => some .status
  | 0x0C => some .rdata
  | 0x10 => some .nleds
  | 0x14 => some .portcfg
  | 0x18 => some .clkhz
  | 0x1C => some .framelen
  | _ => none

/-- The register an access of `n` bytes at `off` reaches, if the access is admitted: 32 bits wide and aligned, inside the window (R62). -/
def admitted (off n : Nat) : Option Reg := if n = 4 then regAt off else none

/-- The address of a window offset in the platform's address space (20_memory.md R61). -/
def platformAddress (off : Nat) : Nat := Config.hostBase + off

/-- The value a host read of a register returns (R22 to R24, R32 to R36). -/
def readReg (s : State) : Reg → Word
  | .cmd => 0
  | .arg => s.arg
  | .status => s.statusWord
  | .rdata => s.rdata
  | .nleds => s.nleds.setWidth 32
  | .portcfg => s.portcfg.setWidth 32
  | .clkhz => s.clkhz
  | .framelen => s.frameLenReg.setWidth 32

/-- Acceptance (41_lifecycle.md R130): CMD_L <- v, ARG_L <- ARG, phase ACCEPTED, and so BUSY = 1. -/
def accept (v : Word) (s : State) : State := { s with cmdL := v, argL := s.arg, phase := .accepted }

/-- A write of CMD: accepted when BUSY = 0 (R130), else dropped with OVR <- 1 (R131). -/
def writeCmd (v : Word) (s : State) : State := if s.busy then { s with status := s.status.overrun } else accept v s

/-- The effect of an admitted host write (R22 to R24, R37). -/
def writeReg (v : Word) (s : State) : Reg → State
  | .cmd => writeCmd v s
  | .arg => { s with arg := v }
  | .status => { s with status := s.status.clearW1C v }
  | .rdata => s
  | .nleds => s
  | .portcfg => s
  | .clkhz => s
  | .framelen => s

/-- A host access that is not admitted: a bus error, no value, and the mark (20_memory.md R63, R64). -/
def refuseHost (s : State) : State := (s.answerHost .busError).mark

/-- MemRead(off, n) (20_memory.md R62). -/
def hostRead (off n : Nat) (s : State) : State :=
  match admitted off n with
  | some r => s.answerHost (.data (readReg s r))
  | none => refuseHost s

/-- MemWrite(off, n, v) (20_memory.md R62). -/
def hostWrite (off n : Nat) (v : Word) (s : State) : State :=
  match admitted off n with
  | some r => (writeReg v s r).answerHost .written
  | none => refuseHost s

/-- The platform drives PORT_FAULT[p] (10_state.md R47, 43_serializer.md R186). -/
def drivePortFault (p : PortIndex) (level : Bool) (s : State) : State :=
  { s with portFault := if level then s.portFault ||| BitVec.twoPow 16 p.toNat else s.portFault &&& ~~~BitVec.twoPow 16 p.toNat }

end Sys2Proof.Machine
end

