-- ==== Sys2Proof/Machine/Sequencer.lean ====
section
/-! DEFINITION. The command sequencer's step (41_lifecycle.md R130, R133) and the steps of the agents outside (20_memory.md R78). -/

namespace Sys2Proof.Machine

/-- The first sequencer step after acceptance (41_lifecycle.md R133): the command latched in CMD_L and ARG_L. -/
def acceptedStep (s : State) : Host.Outcome State Fault Refusal :=
  match decode s.cmdL s.argL with
  | .ok i => exec i s
  | .error _ => .next (refuseIllegal s)

/-- The sequencer's step in each phase; with no command there is nothing to do (10_state.md R39, 70_reset_and_hazards.md R273). -/
def sequencerStep (s : State) : Host.Outcome State Fault Refusal :=
  match s.phase with
  | .idle => .next s
  | .accepted => acceptedStep s
  | .showing k => serializerStep k s
  | .syncing dir rest => syncStep dir rest s

/-- One input is one atomic event (20_memory.md R66, R78; log entry 2). -/
def inputStep (i : Input) (s : State) : Host.Outcome State Fault Refusal :=
  match i with
  | .hostRead off n => .next (hostRead off n s)
  | .hostWrite off n v => .next (hostWrite off n v s)
  | .mirrorRead addr => .next (mirrorRead addr s)
  | .mirrorWrite addr data => .next (mirrorWrite addr data s)
  | .portFault p level => .next (drivePortFault p level s)
  | .turn => sequencerStep s

/-- The bits of a command placed as if the host's writes of ARG and CMD had just been accepted (41_lifecycle.md R130), the sequencer
moving next. -/
def placeCommand (s : State) (cmd arg : Word) : State :=
  { s with cmdL := cmd, argL := arg, phase := .accepted, inputs := .turn :: s.inputs }

end Sys2Proof.Machine
end

