-- ==== Sys2Proof/Machine/Step.lean ====
section
/-! DEFINITION. One step of the model: the next pending input, or the sequencer where none is pending (log entries 1 and 2). -/

namespace Sys2Proof.Machine

/-- One atomic event of the model (20_memory.md R78, 70_reset_and_hazards.md R285). -/
def step (s : State) : Host.Outcome State Fault Refusal :=
  match s.inputs with
  | [] => sequencerStep s
  | i :: rest => inputStep i { s with inputs := rest }

/-- `s` with the command of `w` (command word, then operand word, in the numbering of spec/opcode_table.json) latched as the next one
the sequencer runs.  The block fetches nothing from memory: log entry 1 says how a program comes to run. -/
def State.withFetchWord (s : State) (nbits w : Nat) : State := placeCommand s (tableCommandWord nbits w) (tableArgWord nbits w)

end Sys2Proof.Machine
end

