-- ==== Sys2Proof/Machine/Host.lean ====
section
/-! DEFINITION. The host: the accesses that a line of assembler stands for (30_encoding.md R107, R108), and a host program that makes its
next access, reads the answer and goes on (R108, 70_reset_and_hazards.md R292, 60_exceptions.md R257). -/

namespace Sys2Proof.Machine

/-- One action of a host program (R108). -/
inductive HostAction where
  /-- MemRead(off, n). -/
  | read (off n : Nat)
  /-- MemWrite(off, n, v). -/
  | write (off n : Nat) (v : Word)
  /-- WAIT: read STATUS again and again until BUSY reads 0. -/
  | pollStatus
  /-- CHECK: read STATUS and stop the program as failed if ERR reads 1. -/
  | checkStatus
  deriving DecidableEq, Repr

/-- The bus access an action makes; WAIT and CHECK make MemRead(0x08, 4) (R108). -/
def HostAction.request : HostAction → Input
  | .read off n => .hostRead off n
  | .write off n v => .hostWrite off n v
  | .pollStatus => .hostRead 0x08 4
  | .checkStatus => .hostRead 0x08 4

/-- The effect of that access on the block (20_memory.md R62). -/
def HostAction.perform (a : HostAction) (s : State) : State :=
  match a with
  | .read off n => hostRead off n s
  | .write off n v => hostWrite off n v s
  | .pollStatus => hostRead 0x08 4 s
  | .checkStatus => hostRead 0x08 4 s

/-! ### The assembler (30_encoding.md R107) -/

/-- An unsigned operand of a field of `width` bits; an operand outside the field is an error, not a truncation. -/
def unsignedOperand (width : Nat) (v : Int) : Option Nat := if 0 ≤ v ∧ v < 2 ^ width then some v.toNat else none

/-- An index or positions operand, -32768 to 32767. -/
def signedOperand (v : Int) : Option Int := if indexFits v then some v else none

/-- The command that a line `MNEMONIC operand, operand, ...` spells, the operands read as integers.  No command has that mnemonic with
that many operands, or an operand is outside its range: the assembler refuses the line. -/
def parseCommand (mnemonic : String) (operands : List Int) : Option Instr :=
  match mnemonic, operands with
  | "NOP", [] => some .nop
  | "INIT", [nleds, ibri, port, hz] => do
    return .init (← unsignedOperand 11 nleds) (← unsignedOperand 7 ibri) (← unsignedOperand 4 port) (.ofNat 32 (← unsignedOperand 32 hz))
  | "CLOSE", [] => some .close
  | "SET_PIXEL", [idx, r, g, b] => do
    return .setPixel (← signedOperand idx) (.ofNat 8 (← unsignedOperand 8 r)) (.ofNat 8 (← unsignedOperand 8 g))
      (.ofNat 8 (← unsignedOperand 8 b))
  | "GET_PIXEL", [idx] => return .getPixel (← signedOperand idx)
  | "SET_BRIGHTNESS", [idx, bri] => return .setBrightness (← signedOperand idx) (← unsignedOperand 7 bri)
  | "SHOW", [] => some .showFrame
  | "SYNC_UP", [] => some .syncUp
  | "SYNC_DOWN", [] => some .syncDown
  | "ROTATE", [pos] => return .rotate (← signedOperand pos)
  | "CLEAR", [] => some .clear
  | "ENC_PREFIX", [bri] => return .encPrefix (← unsignedOperand 7 bri)
  | "ENC_ENDLEN", [n] => return .encEndlen (← unsignedOperand 11 n)
  | _, _ => none

/-- The actions of one command: the write of ARG first where the command reads it, then the write of CMD. -/
def commandActions (i : Instr) : List HostAction :=
  match i.argWord with
  | some a => [.write 0x04 4 a, .write 0x00 4 i.commandWord]
  | none => [.write 0x00 4 i.commandWord]

/-- The bus writes of one command, as the block sees them. -/
def busWrites (i : Instr) : List Input := (commandActions i).map HostAction.request

/-- The assembler gives a command its actions, and refuses one with an operand outside its range. -/
def assemble (i : Instr) : Option (List HostAction) := if i.wellFormed then some (commandActions i) else none

/-- The actions a line `MNEMONIC operand, ...` assembles to. -/
def assembleLine (mnemonic : String) (operands : List Int) : Option (List HostAction) := (parseCommand mnemonic operands).bind assemble

/-- A line of a host program: a command, or a pseudo-command (R107, R108). -/
inductive HostLine where
  | command (i : Instr) | wait | check | doCommand (i : Instr) | readData | cleanup
  deriving DecidableEq, Repr

/-- `DO c` after the assembly of c (R108): the command, WAIT, CHECK. -/
def assembleDo (i : Instr) : Option (List HostAction) := (assemble i).map (· ++ [.pollStatus, .checkStatus])

/-- The actions of some pieces one after the other; refused if any piece is. -/
def joinActions : List (Option (List HostAction)) → Option (List HostAction)
  | [] => some []
  | none :: _ => none
  | some a :: rest => (joinActions rest).map (a ++ ·)

/-- The commands of the pseudo-command CLEANUP (R108, 70_reset_and_hazards.md R292): CLEAR, SHOW, CLOSE, in that order. -/
def cleanupCommands : List Instr := [.clear, .showFrame, .close]

/-- The expansion of a line (R108), refused where the assembler refuses its command (R107). -/
def HostLine.expand : HostLine → Option (List HostAction)
  | .command i => assemble i
  | .wait => some [.pollStatus]
  | .check => some [.checkStatus]
  | .doCommand i => assembleDo i
  | .readData => some [.read 0x0C 4]
  | .cleanup => joinActions (cleanupCommands.map assembleDo)

/-- The expansion of some lines; refused if the assembler refuses one of them. -/
def expandLines (lines : List HostLine) : Option (List HostAction) := joinActions (lines.map HostLine.expand)

/-! ### A host program -/

/-- WAIT goes on while bit 0 (BUSY) of the STATUS word read is 1 (R108). -/
def keepsPolling (status : Word) : Bool := status.getLsbD 0

/-- CHECK fails if bit 4 (ERR) of the STATUS word read is 1 (R108). -/
def checkStops (status : Word) : Bool := status.getLsbD 4

/-- Where a host program is (70_reset_and_hazards.md R292): in its body, in its own shutdown work, or in the cleanup sequence. -/
inductive HostStage where
  | body | shutdown | cleanup
  deriving DecidableEq, Repr

/-- A host program in the middle of its run (log entry 18). -/
structure HostProgram where
  /-- The actions to come in this stage. -/
  todo : List HostAction
  /-- Its own shutdown work, after the body on every exit path (R292), or nothing. -/
  shutdown : List HostAction
  /-- The cleanup sequence, after the shutdown work on every exit path (R292), or nothing. -/
  cleanup : List HostAction
  /-- Where it is. -/
  stage : HostStage
  /-- A CHECK has failed. -/
  failed : Bool
  deriving DecidableEq, Repr

/-- The program of some lines, with its shutdown work and its cleanup; none if the assembler refuses a line. -/
def hostProgram (body shutdown cleanup : List HostLine) : Option HostProgram := do
  return ⟨← expandLines body, ← expandLines shutdown, ← expandLines cleanup, .body, false⟩

/-- The program goes on to its next stage: from the body to the shutdown work, from there to the cleanup, from there to its end. -/
def HostProgram.leave (h : HostProgram) : HostProgram :=
  match h.stage with
  | .body => { h with todo := h.shutdown, stage := .shutdown }
  | .shutdown => { h with todo := h.cleanup, stage := .cleanup }
  | .cleanup => { h with todo := [] }

/-- A program with nothing left to do in its stage goes on to the next. -/
def HostProgram.advance (h : HostProgram) : HostProgram := if h.todo = [] then h.leave else h

/-- The program before its next access: at most two stages are over. -/
def HostProgram.settle (h : HostProgram) : HostProgram := h.advance.advance

/-- A CHECK fails (R108, R292): it stops the body, or the shutdown work, and the cleanup still follows; the cleanup itself goes on to its
last command, as R292 has it: after a fatal SHOW the remaining CLOSE is issued and fails with HALTED. -/
def HostProgram.fail (h : HostProgram) : HostProgram :=
  match h.stage with
  | .body => { h with failed := true }.leave
  | .shutdown => { h with failed := true }.leave
  | .cleanup => { h with failed := true }

/-- A cancelled program waits for BUSY = 0 and takes its exit path (60_exceptions.md R257, R292); one that is on it already stays there. -/
def HostProgram.cancel (h : HostProgram) : HostProgram :=
  match h.settle.stage with
  | .body => { h.settle with todo := .pollStatus :: h.settle.shutdown, stage := .shutdown }
  | .shutdown => h.settle
  | .cleanup => h.settle

/-- The program has made its last access (70_reset_and_hazards.md R293). -/
def HostProgram.ended (h : HostProgram) : Bool := h.settle.todo.isEmpty

/-- How the program `h`, about to do `a` and then `rest`, goes on when the bus has answered: WAIT repeats while BUSY = 1, CHECK fails if
ERR = 1 (R108). -/
def HostProgram.proceed (h : HostProgram) (a : HostAction) (rest : List HostAction) (answer : HostAnswer) : HostProgram :=
  match a, answer with
  | .pollStatus, .data v => if keepsPolling v then h else { h with todo := rest }
  | .checkStatus, .data v => if checkStops v then { h with todo := rest }.fail else { h with todo := rest }
  | _, _ => { h with todo := rest }

/-- The host moves: its program makes its next access, one atomic event (20_memory.md R66); nothing once it has ended. -/
def HostProgram.move (h : HostProgram) (s : State) : HostProgram × State :=
  match h.settle.todo with
  | [] => (h.settle, s)
  | a :: rest => (h.settle.proceed a rest (a.perform s).hostAnswer, a.perform s)

/-- Whose move it is in a run of a host program. -/
inductive Turn where
  /-- The host program makes its next access. -/
  | host
  /-- The host program is cancelled (60_exceptions.md R257). -/
  | cancel
  /-- The block moves, or the mirror agent or the platform. -/
  | block
  deriving DecidableEq, Repr

/-- A run of a host program against the block, under a schedule. -/
def play : List Turn → HostProgram → State → Host.Outcome (HostProgram × State) Fault Refusal
  | [], h, s => .next (h, s)
  | .host :: schedule, h, s => play schedule (h.move s).1 (h.move s).2
  | .cancel :: schedule, h, s => play schedule h.cancel s
  | .block :: schedule, h, s =>
    match step s with
    | .next t => play schedule h t
    | .fault r => .fault r
    | .refused r => .refused r

end Sys2Proof.Machine
end

