-- ==== Sys2Proof/Safety.lean ====
section
/-! DEFINITION. What counts as a safe run: the host's duties, the launch premises, the end of a run and its observation
(70_reset_and_hazards.md R272, R290 to R295), and the invariants of the block that claims name. -/

namespace Sys2Proof.Safety

open Sys2Proof.Machine

/-! ### The end of a run (70_reset_and_hazards.md R293) -/

/-- The input is an access of the host. -/
def hostAccess : Input → Bool
  | .hostRead _ _ => true
  | .hostWrite _ _ _ => true
  | .mirrorRead _ => false
  | .mirrorWrite _ _ => false
  | .portFault _ _ => false
  | .turn => false

/-- The input is an access of the mirror agent. -/
def mirrorAccess : Input → Bool
  | .hostRead _ _ => false
  | .hostWrite _ _ _ => false
  | .mirrorRead _ => true
  | .mirrorWrite _ _ => true
  | .portFault _ _ => false
  | .turn => false

/-- A quiescent state: neither the host nor the mirror agent has an access left and the phase is IDLE. -/
def quiescent (s : State) : Bool := s.inputs.all (fun i => !hostAccess i && !mirrorAccess i) && !s.busy

/-- The run of a host program has ended: it has made its last access, and the state is quiescent. -/
def runEnded (h : HostProgram) (s : State) : Bool := h.ended && quiescent s

/-- A final state: quiescent, the fault log empty, no refusal mark. -/
def final (s : State) : Bool := quiescent s && s.faultLog.isEmpty && !s.refusalMark

/-- The observation of a final state. -/
structure Observation where
  frames : List (List Frame)
  status : Word
  rdata : Word
  nleds : Word
  portcfg : Word
  clkhz : Word
  framelen : Word
  arg : Word
  buffers : Option (List Byte × List Byte)
  deriving DecidableEq, Repr

/-- What R293 observes: the frames of every port, seven registers, and FB and MB when INIT = 1. -/
def observe (s : State) : Observation where
  frames := s.ports.toList.map Port.frames
  status := readReg s .status
  rdata := readReg s .rdata
  nleds := readReg s .nleds
  portcfg := readReg s .portcfg
  clkhz := readReg s .clkhz
  framelen := readReg s .framelen
  arg := readReg s .arg
  buffers :=
    if s.status.init then some (Memory.bytes s.fb (bufferLength s.n), Memory.bytes s.mb (bufferLength s.n)) else none

/-! ### The host's duties (70_reset_and_hazards.md R290, R292) -/

/-- What a host has done and owes between two CMD writes. -/
structure Owed where
  /-- ARG has been written since the last CMD write. -/
  argWritten : Bool
  /-- A WAIT is owed before the next CMD write. -/
  wait : Bool
  /-- A WAIT is owed for the last CMD write even if none follows. -/
  due : Bool
  /-- A CHECK is owed for the last CMD write. -/
  check : Bool
  deriving DecidableEq, Repr

/-- Nothing done, nothing owed. -/
def Owed.nothing : Owed := ⟨false, false, false, false⟩

/-- What may stay owed at the end of a run: a WAIT that R290 asks for only before a next CMD write. -/
def Owed.settled (o : Owed) : Bool := !o.due && !o.check

/-- The command of a CMD word reads ARG: INIT and SET_PIXEL (30_encoding.md R93, R96). -/
def readsArg (cmd : Word) : Bool := opField cmd == 0x1 || opField cmd == 0x3

/-- R290 asks for a CHECK after the command of a CMD word: INIT (boot) and SHOW. -/
def needsCheck (cmd : Word) : Bool := opField cmd == 0x1 || opField cmd == 0x6

/-- R290 asks for a WAIT after the command of a CMD word, whatever follows: INIT (boot), SHOW, SYNC_UP and SYNC_DOWN. -/
def needsWait (cmd : Word) : Bool := needsCheck cmd || opField cmd == 0x7 || opField cmd == 0x8

/-- The CMD word is a CLOSE. -/
def isClose (cmd : Word) : Bool := cmd == Instr.close.commandWord

/-- The action keeps the duties of R290: only aligned 32-bit accesses to the window; before a CMD write the WAIT and the CHECK owed for the
last one, and ARG first where the command reads it (R274, R279, R280).  STATUS may be read at any time. -/
def Owed.allows (o : Owed) : HostAction → Bool
  | .read off n => (admitted off n).isSome
  | .write off n v =>
    (admitted off n).isSome && (off != 0x00 || (!o.wait && !o.check && (o.argWritten || !readsArg v)))
  | .pollStatus => true
  | .checkStatus => true

/-- What is owed after an action.  The CHECK that R290 asks for comes after the WAIT (R274, R280, log entry 18). -/
def Owed.after (o : Owed) : HostAction → Owed
  | .read _ _ => o
  | .write off _ v =>
    if off = 0x00 then ⟨false, true, needsWait v, needsCheck v⟩ else if off = 0x04 then { o with argWritten := true } else o
  | .pollStatus => { o with wait := false, due := false }
  | .checkStatus => if o.wait then o else { o with check := false }

/-- Every action of a stage keeps the duties, and wherever the stage can end, at its last action or at a CHECK, so does what comes next. -/
def keepsDuties (next : Owed → Bool) : Owed → List HostAction → Bool
  | o, [] => next o
  | o, a :: rest => o.allows a && (a != .checkStatus || next (o.after a)) && keepsDuties next (o.after a) rest

/-- The cleanup keeps the duties, begun with `o` owed. -/
def cleanupDuties (h : HostProgram) (o : Owed) : Bool := keepsDuties Owed.settled o h.cleanup

/-- The exit path keeps the duties, begun with `o` owed: the shutdown work, then the cleanup. -/
def exitDuties (h : HostProgram) (o : Owed) : Bool := keepsDuties (cleanupDuties h) o h.shutdown

/-- The action is a CMD write of a CLOSE. -/
def issuesClose : HostAction → Bool
  | .read _ _ => false
  | .write off _ v => off == 0x00 && isClose v
  | .pollStatus => false
  | .checkStatus => false

/-- The action is a plain register read, which a host may make at any time (R290). -/
def plainRead : HostAction → Bool
  | .read _ _ => true
  | .write _ _ _ => false
  | .pollStatus => false
  | .checkStatus => false

/-- The exit path of a program: nothing, or its own shutdown work and then, reads apart, exactly CLEAR, SHOW and CLOSE, each with WAIT and
CHECK (R290, R292). -/
def cleanupKept (h : HostProgram) : Prop :=
  (h.shutdown = [] ∧ h.cleanup = []) ∨ some (h.cleanup.filter fun a => !plainRead a) = HostLine.cleanup.expand

/-- HostDuties (R295): the `must do` column of R290 for a program at its start, and none of the moves of R291.  That the cleanup runs on
every exit path, once, to its last command, and that nothing follows it, is how a HostProgram moves; RST, a second host master and another
path to FB have no move at all.  How the host and the mirror agent coordinate around a SYNC is their own protocol, which the spec leaves to
them (R283). -/
structure HostDuties (h : HostProgram) : Prop where
  /-- The program is at its start. -/
  fresh : h.stage = .body ∧ h.failed = false
  /-- The duties are kept from the start, whether the body and the shutdown work end or a CHECK of theirs fails. -/
  kept : keepsDuties (exitDuties h) Owed.nothing h.todo = true
  /-- They are kept on the exit path of a cancelled program, which has waited for BUSY = 0 (60_exceptions.md R257). -/
  cancelled : exitDuties h Owed.nothing = true
  /-- The cleanup is exactly CLEAR, SHOW, CLOSE, in that order, after the shutdown work. -/
  cleanup : cleanupKept h
  /-- It is issued once: the body and the shutdown work release nothing. -/
  once : ∀ a ∈ h.todo ++ h.shutdown, issuesClose a = false

/-! ### The launch premises (70_reset_and_hazards.md R295) -/

/-- CleanReset (R295): the launch state.  Only the environment is free: its pending inputs and the PORT_FAULT levels. -/
def cleanReset (s : State) : Prop := s = { State.reset with inputs := s.inputs, portFault := s.portFault }

/-- FaultSchedule (R295): the platform's draws of PORT_FAULT in a state's future.  They are free: the levels that stand now, and every drive
among the pending inputs. -/
def faultSchedule (s : State) : BitVec 16 × List Input :=
  (s.portFault, s.inputs.filter fun i => match i with | .portFault _ _ => true | _ => false)

/-- The launch premises of a run of a host program (R295).  `Params` are the opaque constants of Config, fixed and free. -/
structure LaunchPremises (h : HostProgram) (s : State) : Prop where
  /-- CleanReset. -/
  clean : cleanReset s
  /-- HostDuties. -/
  duties : HostDuties h
  /-- The program is the one host master: no other host access is pending (R281, R291). -/
  oneMaster : ∀ i ∈ s.inputs, hostAccess i = false

/-- The `must do` of R279 and R290 at one step: the next input is not a CMD write while BUSY = 1. -/
def waitsForIdle (s : State) : Bool :=
  match s.inputs with
  | .hostWrite 0x00 4 _ :: _ => !s.busy
  | _ => true

/-! ### Invariants -/

/-- FB and MB are in canonical form. -/
def buffersCanonical (s : State) : Prop := Memory.wf s.fb ∧ Memory.wf s.mb

/-- A port is idle (10_state.md R46) and no frame is in progress on it. -/
def portIdle (p : Port) : Prop := p.levels = Levels.idle ∧ p.live = []

/-- The configuration is one that INIT made, or none: R26, R27, R33 to R35, R44, R141, R252, and R39's offsets. -/
structure ConfigSound (s : State) : Prop where
  /-- 0 ≤ N ≤ 1024 (R44). -/
  count : s.n ≤ Config.maxLeds
  /-- OPEN = 1 implies INIT = 1 (R27). -/
  openInit : s.status.opened = true → s.status.init = true
  /-- HALT = 1 implies OPEN = 0 (R252). -/
  haltClosed : s.status.halt = true → s.status.opened = false
  /-- INIT = 0 implies N, PORTCFG and CLKHZ are 0 (R33 to R35, R141). -/
  unbuilt : s.status.init = false → s.nleds = 0 ∧ s.portcfg = 0 ∧ s.clkhz = 0
  /-- The selected port exists (R138). -/
  portExists : s.portcfg.toNat < Config.numPorts
  /-- INIT = 1 implies a clock above 0 (R138). -/
  clock : s.status.init = true → s.clkhz ≠ 0
  /-- INIT = 1 implies FB holds no byte at or past 4N (R40, R44). -/
  fbLength : s.status.init = true → Memory.within s.fb (bufferLength s.n)
  /-- INIT = 1 implies MB holds no byte at or past 4N (R42, R44). -/
  mbLength : s.status.init = true → Memory.within s.mb (bufferLength s.n)
  /-- A SYNC runs only with INIT = 1 and HALT = 0 over distinct offsets below 4N, one at least left (R39, R201). -/
  syncing : ∀ dir rest, s.phase = .syncing dir rest →
    s.status.init = true ∧ s.status.halt = false ∧ rest ≠ [] ∧ rest.Pairwise (· < ·) ∧ ∀ j ∈ rest, j < bufferLength s.n

/-- The ports (10_state.md R46, 43_serializer.md R171, R176, R180, R182): in phase SHOWING(k) the selected port is open, its CS_n and SCLK
are 0 and it carries the first k bytes of FRAME(FB, N); every other port, and every port in any other phase, is idle. -/
structure WireSound (s : State) : Prop where
  /-- R180: only PORTCFG ever leaves idle, and only in phase SHOWING. -/
  others : ∀ p : PortIndex, (p ≠ s.portcfg ∨ ∀ k, s.phase ≠ .showing k) → portIdle (s.port p)
  /-- R171, R176: the selected port while a frame is sent. -/
  sending : ∀ k, s.phase = .showing k →
    k < frameLength s.n ∧ s.status.opened = true ∧ (s.port s.portcfg).levels.csN = false ∧
      (s.port s.portcfg).levels.sclk = false ∧ (s.port s.portcfg).live = (frame s.fb s.n).take k

/-- The records agree with STATUS (10_state.md R29, 60_exceptions.md R263, 20_memory.md R63, 44_mirror.md R212). -/
structure RecordsSound (s : State) : Prop where
  /-- ERR = 1 exactly when CAUSE is not NONE (R29). -/
  errCause : s.status.err = true ↔ s.status.cause ≠ .none
  /-- ERR, ANYERR or HALT is 1 only if the fault log has an entry (R263). -/
  logged : (s.status.err = true ∨ s.status.anyerr = true ∨ s.status.halt = true) → s.faultLog ≠ []
  /-- A refused access leaves the mark (R63, R212). -/
  marked : (s.hostAnswer = .busError ∨ s.mirrorAnswer = .refused) → s.refusalMark = true

/-- Every prefix byte of FB has its top three bits 111 (10_state.md R45). -/
def prefixesSound (s : State) : Prop := ∀ i, i < s.n → s.fbByte (channelOffset i chPrefix) &&& 0xE0 = 0xE0

/-- Every prefix byte of MB has its top three bits 111: the premise of R45 for a SYNC_DOWN. -/
def mirrorPrefixesSound (s : State) : Prop := ∀ i, i < s.n → s.mbByte (channelOffset i chPrefix) &&& 0xE0 = 0xE0

/-- The sequencer moves next, with the inputs `rest` pending after it: nothing is pending, or an explicit turn stands first. -/
def sequencerMoves (s : State) (rest : List Input) : Prop := (s.inputs = [] ∧ rest = []) ∨ s.inputs = .turn :: rest

/-- The step `s` is about to take is a copy step of a SYNC_DOWN: that phase, and the sequencer moving. -/
def copyingDown (s : State) : Prop := (∃ pending, sequencerMoves s pending) ∧ ∃ rest, s.phase = .syncing .down rest

/-- Every invariant of the block at once. -/
def sound (s : State) : Prop := buffersCanonical s ∧ ConfigSound s ∧ WireSound s ∧ RecordsSound s

/-! ### What the end of a command writes, in the words of 10_state.md R29, R30 and 60_exceptions.md R250, R263 -/

/-- STATUS after success: ERR 0, CAUSE 0, LASTOP = CMD_L[31:28]; the other fields as they were. -/
def doneStatus (s : State) : Status := { s.status with err := false, cause := .none, lastop := s.cmdL.extractLsb' 28 4 }

/-- STATUS after a failure with `c`: ERR 1, CAUSE, ANYERR 1, LASTOP; the other fields as they were. -/
def failedStatus (s : State) (c : Cause) : Status :=
  { s.status with err := true, cause := c, anyerr := true, lastop := s.cmdL.extractLsb' 28 4 }

/-- The fault log with one entry more. -/
def loggedFault (s : State) (c : Cause) (info : Option Int) : List FaultRecord :=
  s.faultLog ++ [⟨s.cmdL.extractLsb' 28 4, c, info⟩]

/-- The whole effect of a failure that is not fatal (60_exceptions.md R250, R254): STATUS, the phase and the fault log. -/
def failedState (s : State) (c : Cause) (info : Option Int) : State :=
  { s with status := failedStatus s c, phase := .idle, faultLog := loggedFault s c info }

/-- A command that needs INIT = 1: every one but NOP, INIT, ENC_PREFIX and ENC_ENDLEN (60_exceptions.md R245). -/
def needsConfiguration : Instr → Bool
  | .nop => false
  | .init _ _ _ _ => false
  | .close => true
  | .setPixel _ _ _ _ => true
  | .getPixel _ => true
  | .setBrightness _ _ => true
  | .showFrame => true
  | .syncUp => true
  | .syncDown => true
  | .rotate _ => true
  | .clear => true
  | .encPrefix _ => false
  | .encEndlen _ => false

end Sys2Proof.Safety
end

