-- ==== Sys2Proof/Certificates/Slice0/Obligations.lean ====
section
/-! DEFINITION. The statements for the provers, from the numbered rules of spec/.  Each docstring names the rules it formalises. -/

open Sys2Proof Sys2Proof.Machine Sys2Proof.Safety

/-! ### Encoding (30_encoding.md) -/

/-- R98, R99, R107: decoding the words of a well-formed command gives that command, for every command and every operand value the
encoding admits. -/
def Obligations.DecodeOfEncodeIsTheCommand : Prop :=
  ∀ i : Instr, i.wellFormed = true → decode (encode i).1 (encode i).2 = .ok i

/-- R98, R99, R107: a command word that decodes is the command word of what it decodes to, so is the operand word where it is read, and
what it decodes to has its operands in the ranges of the assembler's table. -/
def Obligations.EncodeOfDecodeIsTheWord : Prop :=
  ∀ (cmd arg : Word) (i : Instr), decode cmd arg = .ok i →
    i.commandWord = cmd ∧ (∀ a, i.argWord = some a → a = arg) ∧ i.wellFormed = true

/-- R100: every pair of words either matches exactly one row of the opcode map with every RES bit 0 (and, for SET_PIXEL, ARG[31:24] = 0)
and decodes to that row's command, or decodes to none; no word matches two rows. -/
def Obligations.DecodingIsTotalAndUnambiguous : Prop :=
  ∀ cmd arg : Word,
    (∀ r ∈ opcodeMap, ∀ q ∈ opcodeMap, r.matchesWord cmd = true → q.matchesWord cmd = true → r = q) ∧
    ((∃ i, decode cmd arg = .ok i) ↔
      (∃ r ∈ opcodeMap, r.matchesWord cmd = true) ∧ (cmd.extractLsb' 28 4 = 0x3 → arg.extractLsb' 24 8 = 0)) ∧
    ∀ i, decode cmd arg = .ok i →
      ∃ r ∈ opcodeMap, r.matchesWord cmd = true ∧ r.op = i.commandWord.extractLsb' 28 4 ∧ r.format = i.format

/-- R92, R103: the operand word matters to no command but INIT and SET_PIXEL, and INIT accepts every operand word. -/
def Obligations.OnlyInitAndSetPixelReadArg : Prop :=
  (∀ cmd a b : Word, cmd.extractLsb' 28 4 ≠ 0x1 → cmd.extractLsb' 28 4 ≠ 0x3 → decode cmd a = decode cmd b) ∧
  ∀ cmd a b : Word, cmd.extractLsb' 28 4 = 0x1 → (∃ i, decode cmd a = .ok i) → ∃ i, decode cmd b = .ok i

/-- Words written out from R92 to R97 and the vectors of 95_test_vectors.md, one of each family, and three ILLEGAL ones. -/
def Obligations.SampleWordsDecodeAsTheSpecSays : Prop :=
  decode 0x00000000 0 = .ok .nop ∧
  decode 0x1027F803 0x000F4240 = .ok (.init 3 127 9 1000000) ∧
  decode 0x30008000 0x00123456 = .ok (.setPixel (-32768) 0x12 0x34 0x56) ∧
  decode 0x5065FFFF 0 = .ok (.setBrightness (-1) 101) ∧
  decode 0x60000000 0 = .ok .showFrame ∧
  decode 0x80000000 0 = .ok .syncDown ∧
  decode 0x9000FFFB 0 = .ok (.rotate (-5)) ∧
  decode 0xB0000032 0 = .ok (.encPrefix 50) ∧
  decode 0xC00007FF 0 = .ok (.encEndlen 2047) ∧
  decode 0xD0000000 0 = .error .reservedOpcode ∧
  decode 0x68000000 0 = .error .reservedBits ∧
  decode 0x30000000 0x01FFFFFF = .error .reservedArg

/-- R65: the four byte lanes of a word, lane k carrying bits [8k+7:8k], give back the word. -/
def Obligations.ByteLanesAreLittleEndian : Prop :=
  ∀ v : Word, wordOfLanes (byteLane v 0) (byteLane v 1) (byteLane v 2) (byteLane v 3) = v ∧
    ∀ k t, k < 4 → t < 8 → (byteLane v k).getLsbD t = v.getLsbD (8 * k + t)

/-! ### Steps -/

/-- R133: when the command latched in CMD_L and ARG_L decodes to i and the sequencer moves, the step is exec of i at that state (with
the explicit turn, if that is what let the sequencer move, taken off the pending inputs). -/
def Obligations.StepRunsTheDecodedCommand : Prop :=
  ∀ (s : State) (i : Instr), s.phase = .accepted → decode s.cmdL s.argL = .ok i →
    (s.inputs = [] → step s = exec i s) ∧
    ∀ rest, s.inputs = .turn :: rest → step s = exec i { s with inputs := rest }

/-- R107, R130: the bus writes of a command, issued to an idle block, latch it, and the next sequencer step runs it. -/
def Obligations.AssembledCommandIsAcceptedAndRun : Prop :=
  ∀ (s : State) (i : Instr) (rest : List Input), i.wellFormed = true → s.phase = .idle →
    s.inputs = busWrites i ++ .turn :: rest →
    ∃ t, core.run (busWrites i).length s = .next t ∧ t.phase = .accepted ∧ t.cmdL = i.commandWord ∧
      (∀ a, i.argWord = some a → t.argL = a) ∧ t.fb = s.fb ∧ t.mb = s.mb ∧ t.status = s.status ∧
      step t = exec i { t with inputs := rest }

/-- R101, R102, R103, R241: an accepted command word with a reserved opcode, or a RES bit of its format 1, or SET_PIXEL with ARG_L[31:24]
not 0, fails with ILLEGAL and has no other effect, whatever inputs stay pending. -/
def Obligations.ReservedWordsFailAsIllegal : Prop :=
  ∀ (s : State) (pending : List Input), s.phase = .accepted → sequencerMoves s pending → s.status.halt = false →
    (0xD ≤ (s.cmdL.extractLsb' 28 4).toNat ∨
      (∃ r ∈ opcodeMap, r.op = s.cmdL.extractLsb' 28 4 ∧ s.cmdL &&& r.format.resMask ≠ 0) ∨
      (s.cmdL.extractLsb' 28 4 = 0x3 ∧ s.argL.extractLsb' 24 8 ≠ 0)) →
    step s = .next (failedState { s with inputs := pending } .illegal (some (s.cmdL.extractLsb' 28 4).toNat))

/-- R247: every command accepted while HALT = 1 fails with HALTED and has no other effect, whatever its word. -/
def Obligations.HaltedRefusesEveryCommand : Prop :=
  (∀ (s : State) (pending : List Input), s.phase = .accepted → sequencerMoves s pending → s.status.halt = true →
    step s = .next (failedState { s with inputs := pending } .halted none)) ∧
  ∀ (i : Instr) (s : State), s.status.halt = true → exec i s = .next (failedState s .halted none)

/-- R245: a command that needs a constructed configuration fails with NOT_INIT while INIT = 0 and has no other effect. -/
def Obligations.CommandsBeforeInitAreRefused : Prop :=
  ∀ (i : Instr) (s : State), needsConfiguration i = true → s.status.halt = false → s.status.init = false →
    exec i s = .next (failedState s .notInit (some (s.cmdL.extractLsb' 28 4).toNat))

/-- R100, R130: no command stops the model: every command at every state answers a next state. -/
def Obligations.EveryCommandAnswersANextState : Prop :=
  ∀ (i : Instr) (s : State), ∃ t, exec i s = .next t

/-! ### Lifecycle (41_lifecycle.md) -/

/-- R134: NOP completes; its only effect is ERR, CAUSE and LASTOP (and the phase). -/
def Obligations.NopOnlyUpdatesStatus : Prop :=
  ∀ s : State, s.status.halt = false → exec .nop s = .next { s with status := doneStatus s, phase := .idle }

/-- R137, R138: a successful INIT sets N, PORTCFG and CLKHZ, gives every pixel the prefix byte of the initial brightness and colour 0,
gives MB a draw (log entry 4), sets INIT and OPEN, releases the port that was open, and changes nothing else. -/
def Obligations.InitConstructsTheConfiguration : Prop :=
  ∀ (s : State) (nleds ibri port : Nat) (clk : Word), s.status.halt = false → nleds ≤ 1024 → port < Config.numPorts → clk ≠ 0 →
    s.faultAt port = false → ibri ≤ 100 →
    ∃ t, exec (.init nleds ibri port clk) s = .next t ∧
      t.n = nleds ∧ t.portcfg.toNat = port ∧ t.clkhz = clk ∧
      (∀ i, i < nleds → t.fbByte (4 * i) = prefixByte ibri ∧ t.fbByte (4 * i + 1) = 0 ∧ t.fbByte (4 * i + 2) = 0 ∧
        t.fbByte (4 * i + 3) = 0) ∧
      (∀ j, j < 4 * nleds → t.mbByte j = Config.mirrorInit s.draws j) ∧
      t.status = { doneStatus s with init := true, opened := true } ∧
      (∀ p, t.port p = if s.status.opened = true ∧ p = s.portcfg then (s.port p).release [] else s.port p) ∧
      t = { s with
        nleds := t.nleds, portcfg := t.portcfg, clkhz := t.clkhz, fb := t.fb, mb := t.mb, status := t.status, ports := t.ports,
        phase := .idle, draws := s.draws + 1 }

/-- R135, R136, R141, R251: an INIT with too many pixels fails with CONFIG, else one whose transport does not open fails with TRANSPORT,
else one with a brightness above 100 fails with RANGE; each is fatal and leaves INIT, OPEN, N, PORTCFG and CLKHZ 0, HALT 1, every port
idle, and FB, MB and RDATA as they were. -/
def Obligations.InitFailuresAreFatal : Prop :=
  ∀ (s : State) (nleds ibri port : Nat) (clk : Word), s.status.halt = false → s.phase = .accepted → WireSound s →
    (1024 < nleds ∨ (Config.numPorts ≤ port ∨ clk = 0 ∨ s.faultAt port = true) ∨ 100 < ibri) →
    ∃ t c info, exec (.init nleds ibri port clk) s = .next t ∧
      (c, info) = (if 1024 < nleds then (Cause.config, (nleds : Int))
        else if Config.numPorts ≤ port ∨ clk = 0 ∨ s.faultAt port = true then (Cause.transport, (port : Int))
        else (Cause.range, (ibri : Int))) ∧
      t.status = { failedStatus s c with init := false, opened := false, halt := true } ∧
      t.nleds = 0 ∧ t.portcfg = 0 ∧ t.clkhz = 0 ∧ (∀ p, portIdle (t.port p)) ∧
      t = { s with
        status := t.status, nleds := 0, portcfg := 0, clkhz := 0, ports := t.ports, phase := .idle,
        faultLog := loggedFault s c (some info) }

/-- R140: CLOSE returns the selected port of an open transport to idle, clears OPEN, and keeps FB, MB, N, PORTCFG and CLKHZ; with OPEN = 0
it changes only STATUS. -/
def Obligations.CloseReleasesTheTransport : Prop :=
  ∀ s : State, s.status.halt = false → s.status.init = true →
    ∃ t, exec .close s = .next t ∧
      t.status = { doneStatus s with opened := false } ∧
      (∀ p, t.port p = if s.status.opened = true ∧ p = s.portcfg then (s.port p).release [] else s.port p) ∧
      (s.status.opened = true → (t.port s.portcfg).levels = Levels.idle) ∧
      t = { s with status := t.status, ports := t.ports, phase := .idle }

/-! ### Pixels (42_pixel.md) -/

/-- R150, R151, R152: SET_PIXEL of a pixel in range writes blue, green and red at offsets 4i+1, 4i+2 and 4i+3 and no other byte of FB, no
byte of MB and no register but STATUS; with an index outside [0, N) it succeeds and leaves FB byte for byte unchanged, ANYERR not set. -/
def Obligations.SetPixelWritesItsThreeBytes : Prop :=
  ∀ (s : State) (idx : Int) (red green blue : Byte), s.status.halt = false → s.status.init = true →
    (0 ≤ idx ∧ idx < s.n → ∃ t, exec (.setPixel idx red green blue) s = .next t ∧
      (∀ j, t.fbByte j =
        if j = 4 * idx.toNat + 1 then blue else if j = 4 * idx.toNat + 2 then green else if j = 4 * idx.toNat + 3 then red
        else s.fbByte j) ∧
      t = { s with fb := t.fb, status := doneStatus s, phase := .idle }) ∧
    ((idx < 0 ∨ (s.n : Int) ≤ idx) →
      exec (.setPixel idx red green blue) s = .next { s with status := doneStatus s, phase := .idle })

/-- R155: GET_PIXEL of a pixel in range puts {0, red, green, blue} into RDATA and writes nothing else but STATUS. -/
def Obligations.GetPixelReturnsTheColour : Prop :=
  ∀ (s : State) (idx : Int), s.status.halt = false → s.status.init = true → 0 ≤ idx → idx < s.n →
    ∃ t, exec (.getPixel idx) s = .next t ∧
      t.rdata.extractLsb' 24 8 = 0 ∧ t.rdata.extractLsb' 16 8 = s.fbByte (4 * idx.toNat + 3) ∧
      t.rdata.extractLsb' 8 8 = s.fbByte (4 * idx.toNat + 2) ∧ t.rdata.extractLsb' 0 8 = s.fbByte (4 * idx.toNat + 1) ∧
      t = { s with rdata := t.rdata, status := doneStatus s, phase := .idle }

/-- R156, R243: GET_PIXEL with an index outside [0, N) fails with INDEX, not fatal, RDATA unchanged. -/
def Obligations.GetPixelOutOfRangeFailsWithIndex : Prop :=
  ∀ (s : State) (idx : Int), s.status.halt = false → s.status.init = true → (idx < 0 ∨ (s.n : Int) ≤ idx) →
    exec (.getPixel idx) s = .next (failedState s .index (some idx))

/-- R151: GET_PIXEL i after SET_PIXEL i r g b returns r, g, b, also with a SET_PIXEL of another index between the two. -/
def Obligations.GetPixelAfterSetPixel : Prop :=
  ∀ (s : State) (i k : Int) (r g b r' g' b' : Byte), s.status.halt = false → s.status.init = true → 0 ≤ i → i < s.n → k ≠ i →
    ∃ t u v, exec (.setPixel i r g b) s = .next t ∧ exec (.setPixel k r' g' b') t = .next u ∧ exec (.getPixel i) u = .next v ∧
      v.rdata = packColour r g b ∧ v.status.err = false

/-- R157, R158: SET_BRIGHTNESS with a brightness of at most 100 writes the prefix byte P(BRI), at least 0xE0, of a pixel in range and
nothing else but STATUS. -/
def Obligations.SetBrightnessWritesThePrefixByte : Prop :=
  ∀ (s : State) (idx : Int) (bri : Nat), s.status.halt = false → s.status.init = true → bri ≤ 100 → 0 ≤ idx → idx < s.n →
    ∃ t, exec (.setBrightness idx bri) s = .next t ∧
      (∀ j, t.fbByte j = if j = 4 * idx.toNat then prefixByte bri else s.fbByte j) ∧ 0xE0 ≤ (prefixByte bri).toNat ∧
      t = { s with fb := t.fb, status := doneStatus s, phase := .idle }

/-- R157, R159: SET_BRIGHTNESS above 100 fails with RANGE whatever the index, not fatal; at most 100 with an index outside [0, N) it
succeeds and changes nothing but STATUS. -/
def Obligations.SetBrightnessRangeAndOutOfRangeIndex : Prop :=
  ∀ (s : State) (idx : Int) (bri : Nat), s.status.halt = false → s.status.init = true →
    (100 < bri → exec (.setBrightness idx bri) s = .next (failedState s .range (some bri))) ∧
    (bri ≤ 100 → (idx < 0 ∨ (s.n : Int) ≤ idx) →
      exec (.setBrightness idx bri) s = .next { s with status := doneStatus s, phase := .idle })

/-! ### Encoder (40_encoder.md) -/

/-- R110, R111, R113: for b in 0..100, Q(b) is at most 31 and is the nearest integer to 31b/100, the one tie b = 50 going to 16; every
value 0..31 is reached; the prefix byte is 0xE0 + Q(b), its top three bits 111 and its low five bits Q(b). -/
def Obligations.QuantizerRoundsToNearest : Prop :=
  (∀ b, b ≤ 100 → quantize b = (31 * b + 50) / 100 ∧ quantize b ≤ 31 ∧ 200 * quantize b ≤ 62 * b + 100 ∧ 62 * b < 200 * quantize b + 100) ∧
  (∀ b, b ≤ 100 → 200 * quantize b = 62 * b + 100 → b = 50) ∧ quantize 50 = 16 ∧
  (∀ q, q ≤ 31 → ∃ b, b ≤ 100 ∧ quantize b = q) ∧
  ∀ b, b ≤ 100 → (prefixByte b).toNat = 0xE0 + quantize b ∧ prefixByte b &&& 0xE0 = 0xE0 ∧
    (prefixByte b &&& 0x1F).toNat = quantize b

/-- R120, R121: ENC_PREFIX puts P(BRI) into RDATA, zero-extended, for a brightness of at most 100, and fails with RANGE above it (RDATA
unchanged); it needs no INIT and writes nothing else but STATUS.  Its result is the byte that SET_BRIGHTNESS puts at FB[4i]. -/
def Obligations.EncPrefixReturnsThePrefixByte : Prop :=
  ∀ (s : State) (bri : Nat), s.status.halt = false →
    (bri ≤ 100 → exec (.encPrefix bri) s =
      .next { s with rdata := (prefixByte bri).setWidth 32, status := doneStatus s, phase := .idle }) ∧
    (100 < bri → exec (.encPrefix bri) s = .next (failedState s .range (some bri))) ∧
    ∀ i : Int, bri ≤ 100 → s.status.init = true → 0 ≤ i → i < s.n →
      ∃ t u, exec (.setBrightness i bri) s = .next t ∧ exec (.encPrefix bri) t = .next u ∧
        u.rdata = (t.fbByte (4 * i.toNat)).setWidth 32

/-- R122, R115: ENC_ENDLEN puts ceil(NL/16) into RDATA, the least count of 16s that covers NL, with no INIT needed and no operand that
fails, and writes nothing else but STATUS. -/
def Obligations.EncEndlenReturnsThePaddingLength : Prop :=
  ∀ (s : State) (nl : Nat), s.status.halt = false → nl ≤ 2047 →
    ∃ t, exec (.encEndlen nl) s = .next t ∧ nl ≤ 16 * t.rdata.toNat ∧ 16 * t.rdata.toNat < nl + 16 ∧
      t = { s with rdata := t.rdata, status := doneStatus s, phase := .idle }

/-- R116, R117, R177: the frame has FLEN(N) bytes, and its byte k is FRAMEBYTE(k): 0 for the first four, then FB[k-4] for the 4N pixel
bytes, then 0. -/
def Obligations.FrameIsTheFrameBytes : Prop :=
  ∀ s : State, (frame s.fb s.n).length = 4 + 4 * s.n + (s.n + 15) / 16 ∧ frameLength s.n = 4 + 4 * s.n + (s.n + 15) / 16 ∧
    ∀ k, k < frameLength s.n →
      (frame s.fb s.n)[k]? = some (if 4 ≤ k ∧ k < 4 + 4 * s.n then s.fbByte (k - 4) else 0) ∧
      s.frameByte k = if 4 ≤ k ∧ k < 4 + 4 * s.n then s.fbByte (k - 4) else 0

/-! ### SHOW (43_serializer.md) -/

/-- R176: SHOW's first step, with OPEN = 1, sets CS_n of the selected port to 0 and enters SHOWING(0).  In phase SHOWING(k) with PORT_FAULT 0
a serializer step sends the whole byte FRAMEBYTE(k) on the selected port and no other; it moves to k+1, and the step of the last byte
ends the frame, returns the port to idle and completes.  Nothing else changes, whatever inputs stay pending.  That SDO keeps bit 0 of
the byte in the gap after it is the model's choice (log entry 9): the spec states no level of SDO there. -/
def Obligations.ShowSendsOneByteAStep : Prop :=
  (∀ s : State, s.status.halt = false → s.status.init = true → s.status.opened = true →
    ∃ t, exec .showFrame s = .next t ∧
      (∀ p, t.port p =
        if p = s.portcfg then ⟨⟨(s.port p).levels.sclk, (s.port p).levels.sdo, false⟩, [], (s.port p).frames⟩ else s.port p) ∧
      t = { s with ports := t.ports, phase := .showing 0 }) ∧
  ∀ (s : State) (k : Nat) (pending : List Input), sequencerMoves s pending → s.phase = .showing k → k < frameLength s.n →
    s.faultAt s.portcfg.toNat = false →
    ∃ t, step s = .next t ∧ (∀ p, p ≠ s.portcfg → t.port p = s.port p) ∧
      if k + 1 = frameLength s.n then
        t.port s.portcfg =
          ⟨Levels.idle, [], (s.port s.portcfg).frames ++ [⟨(s.port s.portcfg).live ++ [s.frameByte k], []⟩]⟩ ∧
        t = { s with inputs := pending, status := doneStatus s, ports := t.ports, phase := .idle }
      else
        t.port s.portcfg =
          ⟨⟨false, (s.frameByte k).getLsbD 0, false⟩, (s.port s.portcfg).live ++ [s.frameByte k], (s.port s.portcfg).frames⟩ ∧
        t = { s with inputs := pending, ports := t.ports, phase := .showing (k + 1) }

/-- R172: SHOW with OPEN = 0 sends nothing (every port that is idle stays as it is) and fails with TRANSPORT, fatal. -/
def Obligations.ShowAfterCloseIsFatal : Prop :=
  ∀ s : State, s.status.halt = false → s.status.init = true → s.status.opened = false → portIdle (s.port s.portcfg) →
    ∃ t, exec .showFrame s = .next t ∧
      (∀ p, t.port p = s.port p) ∧
      t = { s with
        status := { failedStatus s .transport with opened := false, halt := true }, ports := t.ports, phase := .idle,
        faultLog := loggedFault s .transport (some s.portcfg.toNat) }

/-- R186, R187: PORT_FAULT 1 at serializer step k sends 0 to 7 leading bits of FRAMEBYTE(k) (how many is a draw, log entry 6), returns the
port to idle, and fails the SHOW with TRANSPORT, fatal; INIT, N and FB are unchanged, whatever inputs stay pending. -/
def Obligations.PortFaultEndsTheFrame : Prop :=
  ∀ (s : State) (k : Nat) (pending : List Input), sequencerMoves s pending → s.phase = .showing k → k < frameLength s.n →
    s.faultAt s.portcfg.toNat = true → (s.port s.portcfg).levels.csN = false →
    ∃ t m, step s = .next t ∧ m ≤ 7 ∧ (∀ p, p ≠ s.portcfg → t.port p = s.port p) ∧
      t.port s.portcfg =
        ⟨Levels.idle, [], (s.port s.portcfg).frames ++ [⟨(s.port s.portcfg).live, (bitsMsbFirst (s.frameByte k)).take m⟩]⟩ ∧
      t = { s with
        inputs := pending, status := { failedStatus s .transport with opened := false, halt := true }, ports := t.ports,
        phase := .idle, faultLog := loggedFault s .transport (some s.portcfg.toNat), draws := s.draws + 1 }

/-- R171, R286: an accepted SHOW with the transport open and PORT_FAULT 0 throughout is busy for 1 + FLEN(N) sequencer steps and has then
sent on the selected port exactly FRAME(FB, N), in one frame, and nothing on any other port; FB and MB are unchanged. -/
def Obligations.ShowSendsExactlyTheFrame : Prop :=
  ∀ s : State, s.phase = .accepted → s.cmdL = 0x60000000 → s.inputs = [] → s.status.halt = false → s.status.init = true →
    s.status.opened = true → s.faultAt s.portcfg.toNat = false →
    (∀ m, m ≤ frameLength s.n → ∃ u, core.run m s = .next u ∧ u.busy = true) ∧
    ∃ t, core.run (1 + frameLength s.n) s = .next t ∧ (∀ p, p ≠ s.portcfg → t.port p = s.port p) ∧
      t.port s.portcfg = ⟨Levels.idle, [], (s.port s.portcfg).frames ++ [⟨frame s.fb s.n, []⟩]⟩ ∧
      t = { s with status := doneStatus s, ports := t.ports, phase := .idle }

/-- R70, R183: over one frame a device samples, on the rising edges of SCLK, eight bits for each byte, bit 7 first: sample 8k + t is bit
7 - t of byte k.  After the whole bytes come the partial bits, and there is no other edge. -/
def Obligations.RisingEdgesCarryTheFrameBits : Prop :=
  ∀ f : Frame, (samples false f.wave).length = 8 * f.bytes.length + f.partialBits.length ∧
    (∀ k t b, f.bytes[k]? = some b → t < 8 → (samples false f.wave)[8 * k + t]? = some (b.getLsbD (7 - t))) ∧
    (samples false f.wave).drop (8 * f.bytes.length) = f.partialBits

/-! ### The mirror buffer (44_mirror.md) -/

/-- R201: a SYNC command enters SYNCING(dir, {0..4N-1}), or completes at once when N = 0; it changes nothing else. -/
def Obligations.SyncStartsWithEveryOffset : Prop :=
  ∀ s : State, s.status.halt = false → s.status.init = true →
    (s.n = 0 → exec .syncUp s = .next { s with status := doneStatus s, phase := .idle } ∧
      exec .syncDown s = .next { s with status := doneStatus s, phase := .idle }) ∧
    (s.n ≠ 0 → ∃ rest, (∀ j, j ∈ rest ↔ j < 4 * s.n) ∧ rest.Nodup ∧
      exec .syncUp s = .next { s with phase := .syncing .up rest } ∧
      exec .syncDown s = .next { s with phase := .syncing .down rest })

/-- R201: a copy step takes one offset j out of those left, copies byte j alone (FB to MB when UP, MB to FB when DOWN), and completes the
command when none is left, whatever inputs stay pending.  Which j is a draw (log entry 5). -/
def Obligations.SyncStepCopiesOneByte : Prop :=
  ∀ (s : State) (dir : Direction) (rest : List Nat) (pending : List Input), sequencerMoves s pending →
    s.phase = .syncing dir rest → rest ≠ [] →
    ∃ t j left, step s = .next t ∧ j ∈ rest ∧ (∀ i, i ∈ left ↔ i ∈ rest ∧ i ≠ j) ∧
      (∀ i, t.mbByte i = if dir = .up ∧ i = j then s.fbByte j else s.mbByte i) ∧
      (∀ i, t.fbByte i = if dir = .down ∧ i = j then s.mbByte j else s.fbByte i) ∧
      t = { s with
        inputs := pending, fb := t.fb, mb := t.mb, draws := s.draws + 1,
        status := if left = [] then doneStatus s else s.status,
        phase := if left = [] then .idle else .syncing dir left }

/-- R202, R206, R286: with no access of the mirror agent, an accepted SYNC takes 1 + 4N sequencer steps, busy until the last of them is done;
then MB equals FB after SYNC_UP (FB as it was), and FB equals MB after SYNC_DOWN (MB as it was). -/
def Obligations.SyncCopiesTheWholeBuffer : Prop :=
  ∀ s : State, s.phase = .accepted → s.inputs = [] → s.status.halt = false → s.status.init = true →
    ((s.cmdL = 0x70000000 ∨ s.cmdL = 0x80000000) → ∀ m, m ≤ 4 * s.n → ∃ u, core.run m s = .next u ∧ u.busy = true) ∧
    (s.cmdL = 0x70000000 → ∃ t, core.run (1 + 4 * s.n) s = .next t ∧ t.phase = .idle ∧ t.status = doneStatus s ∧ t.fb = s.fb ∧
      ∀ j, t.mbByte j = if j < 4 * s.n then s.fbByte j else s.mbByte j) ∧
    (s.cmdL = 0x80000000 → ∃ t, core.run (1 + 4 * s.n) s = .next t ∧ t.phase = .idle ∧ t.status = doneStatus s ∧ t.mb = s.mb ∧
      ∀ j, t.fbByte j = if j < 4 * s.n then s.mbByte j else s.fbByte j)

/-- R207: SYNC_UP, then SYNC_DOWN on an untouched mirror, leaves FB as it was, byte for byte. -/
def Obligations.SyncUpThenSyncDownIsANoOp : Prop :=
  ∀ s : State, s.phase = .accepted → s.cmdL = 0x70000000 → s.inputs = [] → s.status.halt = false → s.status.init = true →
    ∃ t u, core.run (1 + 4 * s.n) s = .next t ∧ core.run (1 + 4 * s.n) (accept 0x80000000 t) = .next u ∧ u.phase = .idle ∧
      ∀ j, u.fbByte j = s.fbByte j

/-- R211, R212: a mirror-port access is admitted exactly when INIT = 1 and MB_ADDR < 4N: a read then returns MB[a] and changes nothing, a
write sets MB[a] and changes nothing else; any other access is refused with MB_ERR = 1, no value, no byte written, and the mark. -/
def Obligations.MirrorPortAdmitsExactlyTheBuffer : Prop :=
  ∀ (s : State) (addr : MirrorAddr) (data : Byte) (rest : List Input),
    (s.inputs = .mirrorRead addr :: rest →
      step s = .next (
        if s.status.init = true ∧ addr.toNat < 4 * s.n then
          { s with inputs := rest, mirrorAnswer := .data (s.mbByte addr.toNat) }
        else { s with inputs := rest, mirrorAnswer := .refused, refusalMark := true })) ∧
    (s.inputs = .mirrorWrite addr data :: rest →
      ∃ t, step s = .next t ∧
        if s.status.init = true ∧ addr.toNat < 4 * s.n then
          (∀ j, t.mbByte j = if j = addr.toNat then data else s.mbByte j) ∧
          t = { s with inputs := rest, mb := t.mb, mirrorAnswer := .written }
        else t = { s with inputs := rest, mirrorAnswer := .refused, refusalMark := true })

/-- R43, R211, R214: the contents of MB influence nothing but MB and the mirror port's answers, except through a copy step of SYNC_DOWN
(a step of another agent between two copy steps is not such a step): two states that differ only in MB and in the mirror port's last answer
go, in any other step, to states that differ only there. -/
def Obligations.MirrorContentsReachOnlyTheMirrorPort : Prop :=
  ∀ (s t : State) (m : Memory) (a : MirrorAnswer), ¬copyingDown s → step s = .next t →
    ∃ m' a', step { s with mb := m, mirrorAnswer := a } = .next { t with mb := m', mirrorAnswer := a' }

/-! ### Whole-buffer commands (45_buffer_ops.md) -/

/-- R220 to R223, R246: ROTATE with N > 0 moves whole pixel records: pixel i holds what pixel emod(i + POS, N) held, prefix byte included;
it writes no MB byte and no register but STATUS.  With N = 0 it fails with DIVZERO, not fatal, and changes nothing but STATUS. -/
def Obligations.RotateMovesPixelRecords : Prop :=
  ∀ (s : State) (pos : Int), s.status.halt = false → s.status.init = true →
    (0 < s.n → ∃ t, exec (.rotate pos) s = .next t ∧
      (∀ i k, i < s.n → k < 4 → t.fbByte (4 * i + k) = s.fbByte (4 * (((i : Int) + pos) % (s.n : Int)).toNat + k)) ∧
      t = { s with fb := t.fb, status := doneStatus s, phase := .idle }) ∧
    (s.n = 0 → exec (.rotate pos) s = .next (failedState s .divzero none))

/-- R224: ROTATE POS, then ROTATE by any value congruent to -POS modulo N, restores FB byte for byte. -/
def Obligations.RotateThenInverseRestores : Prop :=
  ∀ (s : State) (pos inv : Int), s.status.halt = false → s.status.init = true → 0 < s.n → (pos + inv) % (s.n : Int) = 0 →
    ∃ t u, exec (.rotate pos) s = .next t ∧ exec (.rotate inv) t = .next u ∧ ∀ j, j < 4 * s.n → u.fbByte j = s.fbByte j

/-- R226, R227: CLEAR sets the colour bytes of every pixel to 0, keeps every prefix byte, and writes nothing else but STATUS. -/
def Obligations.ClearKeepsThePrefixBytes : Prop :=
  ∀ s : State, s.status.halt = false → s.status.init = true →
    ∃ t, exec .clear s = .next t ∧
      (∀ i, i < s.n → t.fbByte (4 * i) = s.fbByte (4 * i) ∧ t.fbByte (4 * i + 1) = 0 ∧ t.fbByte (4 * i + 2) = 0 ∧
        t.fbByte (4 * i + 3) = 0) ∧
      t = { s with fb := t.fb, status := doneStatus s, phase := .idle }

/-- R32, R33, R43, R83, R174, R215: what a command's first step leaves unchanged.  ARG, the latches, the inputs and the answers always;
MB, N, PORTCFG and CLKHZ but for INIT; RDATA but for the three queries; the ports but for INIT, CLOSE and SHOW (and a SHOW that fails);
and every byte of FB but for INIT, ROTATE and CLEAR, the colour bytes of SET_PIXEL's pixel and the prefix byte of SET_BRIGHTNESS's. -/
def Obligations.CommandsLeaveTheRestUnchanged : Prop :=
  ∀ (i : Instr) (s t : State), exec i s = .next t →
    t.arg = s.arg ∧ t.cmdL = s.cmdL ∧ t.argL = s.argL ∧ t.inputs = s.inputs ∧ t.portFault = s.portFault ∧
    t.hostAnswer = s.hostAnswer ∧ t.mirrorAnswer = s.mirrorAnswer ∧ t.refusalMark = s.refusalMark ∧
    t.status.ovr = s.status.ovr ∧ (s.status.anyerr = true → t.status.anyerr = true) ∧
    (match i with
      | .init _ _ _ _ => True
      | _ => t.mb = s.mb ∧ t.nleds = s.nleds ∧ t.portcfg = s.portcfg ∧ t.clkhz = s.clkhz ∧ t.status.init = s.status.init ∧
          t.draws = s.draws) ∧
    (match i with
      | .getPixel _ => True
      | .encPrefix _ => True
      | .encEndlen _ => True
      | _ => t.rdata = s.rdata) ∧
    (match i with
      | .init _ _ _ _ => True
      | .close => True
      | .showFrame => True
      | _ => t.ports = s.ports ∧ t.status.opened = s.status.opened ∧ t.status.halt = s.status.halt) ∧
    match i with
    | .init _ _ _ _ => True
    | .rotate _ => True
    | .clear => True
    | .setPixel idx _ _ _ =>
      ∀ j, j ≠ channelOffset idx.toNat chBlue → j ≠ channelOffset idx.toNat chGreen → j ≠ channelOffset idx.toNat chRed →
        t.fbByte j = s.fbByte j
    | .setBrightness idx _ => ∀ j, j ≠ channelOffset idx.toNat chPrefix → t.fbByte j = s.fbByte j
    | _ => ∀ j, t.fbByte j = s.fbByte j

/-! ### The host bus (10_state.md, 20_memory.md, 41_lifecycle.md) -/

/-- R22, R130: a host write of CMD while BUSY = 0 latches the word and ARG and makes the block busy; nothing else happens. -/
def Obligations.CommandWriteIsAccepted : Prop :=
  ∀ (s : State) (v : Word) (rest : List Input), s.inputs = .hostWrite 0x00 4 v :: rest → s.busy = false →
    ∃ t, step s = .next t ∧ t.busy = true ∧
      t = { s with inputs := rest, cmdL := v, argL := s.arg, phase := .accepted, hostAnswer := .written }

/-- R131: a host write of CMD while BUSY = 1 is dropped: OVR is set and the command in progress, CMD_L and ARG_L are not touched. -/
def Obligations.CommandWriteWhileBusyIsDropped : Prop :=
  ∀ (s : State) (v : Word) (rest : List Input), s.inputs = .hostWrite 0x00 4 v :: rest → s.busy = true →
    step s = .next { s with inputs := rest, status := { s.status with ovr := true }, hostAnswer := .written }

/-- R24: the fields of the STATUS word, every other bit 0, and a host write to STATUS, which affects only ANYERR (bit 5) and OVR (bit 6), each
cleared by a 1; and the numbers of the causes that the CAUSE field holds (the codes of R240's table, none above 8). -/
def Obligations.StatusRegisterFieldsAndClearing : Prop :=
  (∀ s : State, ∃ w, readReg s .status = w ∧ w.getLsbD 0 = s.busy ∧ w.getLsbD 1 = s.status.init ∧ w.getLsbD 2 = s.status.opened ∧
    w.getLsbD 3 = s.status.halt ∧ w.getLsbD 4 = s.status.err ∧ w.getLsbD 5 = s.status.anyerr ∧ w.getLsbD 6 = s.status.ovr ∧
    w.getLsbD 7 = false ∧ w.extractLsb' 8 4 = s.status.cause.code ∧ w.extractLsb' 12 4 = s.status.lastop ∧
    w.extractLsb' 16 16 = 0) ∧
  (Cause.none.code = 0 ∧ Cause.config.code = 1 ∧ Cause.transport.code = 2 ∧ Cause.index.code = 3 ∧ Cause.range.code = 4 ∧
    Cause.illegal.code = 5 ∧ Cause.notInit.code = 6 ∧ Cause.divzero.code = 7 ∧ Cause.halted.code = 8 ∧ ∀ c : Cause, c.code.toNat ≤ 8) ∧
  ∀ (s : State) (v : Word) (rest : List Input), s.inputs = .hostWrite 0x08 4 v :: rest →
    step s = .next { s with
      inputs := rest, hostAnswer := .written,
      status := { s.status with
        anyerr := if v.getLsbD 5 then false else s.status.anyerr, ovr := if v.getLsbD 6 then false else s.status.ovr } }

/-- R63, R64: a host access that is not 4 bytes wide, or not at a multiple of 4, or at 0x20 or above, is answered with a bus error; it
changes no state, starts no command and leaves the refusal mark. -/
def Obligations.BadHostAccessIsRefused : Prop :=
  ∀ (s : State) (off n : Nat) (v : Word) (rest : List Input), (n ≠ 4 ∨ off % 4 ≠ 0 ∨ 0x20 ≤ off) →
    (s.inputs = .hostRead off n :: rest ∨ s.inputs = .hostWrite off n v :: rest) →
    step s = .next { s with inputs := rest, hostAnswer := .busError, refusalMark := true }

/-- R21, R36, R62, R66, R67: a 4-byte read at each of the eight offsets, in any phase and with HALT 0 or 1, returns that register's value
and changes nothing. -/
def Obligations.HostReadsReturnTheRegisters : Prop :=
  ∀ (s : State) (k : Nat) (rest : List Input), k < 8 → s.n ≤ 1024 → s.inputs = .hostRead (4 * k) 4 :: rest →
    ∃ v, step s = .next { s with inputs := rest, hostAnswer := .data v } ∧
      v.toNat = match k with
        | 0 => 0
        | 1 => s.arg.toNat
        | 2 => s.statusWord.toNat
        | 3 => s.rdata.toNat
        | 4 => s.n
        | 5 => s.portcfg.toNat
        | 6 => s.clkhz.toNat
        | _ => if s.status.init then 4 + 4 * s.n + (s.n + 15) / 16 else 0

/-- R23, R37: a write of ARG replaces ARG alone, while a command runs as well; a write of RDATA, NLEDS, PORTCFG, CLKHZ or FRAMELEN is
ignored and does not fail. -/
def Obligations.OtherRegisterWrites : Prop :=
  ∀ (s : State) (off : Nat) (v : Word) (rest : List Input), s.inputs = .hostWrite off 4 v :: rest →
    (off = 0x04 → step s = .next { s with inputs := rest, arg := v, hostAnswer := .written }) ∧
    ((off = 0x0C ∨ off = 0x10 ∨ off = 0x14 ∨ off = 0x18 ∨ off = 0x1C) →
      step s = .next { s with inputs := rest, hostAnswer := .written })

/-- R47, R186: the platform's drive of PORT_FAULT[p] sets that level alone; nothing else changes (that the levels are held between drives is
the model's form of the input, log entry 3). -/
def Obligations.PlatformDrivesOnePortFault : Prop :=
  ∀ (s : State) (p : PortIndex) (level : Bool) (rest : List Input), s.inputs = .portFault p level :: rest →
    ∃ t, step s = .next t ∧ (∀ q : PortIndex, t.faultAt q.toNat = if q = p then level else s.faultAt q.toNat) ∧
      t = { s with inputs := rest, portFault := t.portFault }

/-! ### Reset (10_state.md R50, 70_reset_and_hazards.md) -/

/-- R50, R272: right after reset every register reads 0, no field of STATUS is set, the latches are 0, the phase is IDLE, every port is
idle with nothing sent, nothing is in flight, the fault log is empty, and the mirror port refuses every access. -/
def Obligations.ResetLeavesTheLaunchState : Prop :=
  (∀ r, readReg State.reset r = 0) ∧ State.reset.cmdL = 0 ∧ State.reset.argL = 0 ∧ State.reset.phase = .idle ∧
  (∀ p, State.reset.port p = ⟨⟨false, false, true⟩, [], []⟩) ∧ State.reset.inputs = [] ∧ State.reset.faultLog = [] ∧
  State.reset.refusalMark = false ∧ ∀ a, mirrorAdmits State.reset a = false

/-- R270: asserting RST gives every register its reset value, abandons a command in progress with no failure recorded, and idles every
port; a frame being sent on a port is cut off after m ≤ 7 leading bits of FRAMEBYTE(k) in phase SHOWING(k), and earlier frames stay sent.
How many bits, and that the fault log and the frames stay, is the model's choice (log entry 12). -/
def Obligations.AssertingResetAbandonsTheCommand : Prop :=
  ∀ s : State, (∀ r, readReg (assertRst s) r = 0) ∧ (assertRst s).phase = .idle ∧ (assertRst s).cmdL = 0 ∧ (assertRst s).argL = 0 ∧
    (assertRst s).faultLog = s.faultLog ∧ (∀ a, mirrorAdmits (assertRst s) a = false) ∧
    ∃ m, m ≤ 7 ∧ ∀ p, portIdle ((assertRst s).port p) ∧
      ((assertRst s).port p).frames =
        if (s.port p).levels.csN then (s.port p).frames
        else (s.port p).frames ++ [⟨(s.port p).live,
          match s.phase with
          | .showing k => if k < frameLength s.n then (bitsMsbFirst (s.frameByte k)).take m else []
          | _ => []⟩]

/-- R28, R253, R271: no step clears HALT (hardware reset does), and from a sound state with HALT = 1 no step makes a port leave idle. -/
def Obligations.NoStepClearsHalt : Prop :=
  (∀ s t : State, s.status.halt = true → step s = .next t →
    t.status.halt = true ∧ (ConfigSound s → WireSound s → ∀ p, t.port p = s.port p)) ∧
  ∀ s : State, (assertRst s).status.halt = false

/-! ### Invariants that every step keeps -/

/-- FB and MB stay in canonical form. -/
def Obligations.StepKeepsBuffersCanonical : Prop :=
  ∀ s t : State, buffersCanonical s → step s = .next t → buffersCanonical t

/-- R26, R27, R33 to R35, R40, R42, R44: the configuration stays sound. -/
def Obligations.StepKeepsTheConfigurationSound : Prop :=
  ∀ s t : State, ConfigSound s → step s = .next t → ConfigSound t

/-- R46, R171, R180, R182: the ports stay sound: at every point of a SHOW the selected port carries the first k bytes of FRAME(FB, N), and
no other port ever leaves idle. -/
def Obligations.StepKeepsTheWireSound : Prop :=
  ∀ s t : State, WireSound s → step s = .next t → WireSound t

/-- R29, R63, R212, R263: STATUS, the fault log and the refusal mark stay in agreement. -/
def Obligations.StepKeepsTheRecordsSound : Prop :=
  ∀ s t : State, RecordsSound s → step s = .next t → RecordsSound t

/-- Every invariant holds in the state after reset. -/
def Obligations.ResetMeetsEveryInvariant : Prop := sound State.reset ∧ prefixesSound State.reset

/-- R45: a step that is not a copy step of SYNC_DOWN (the other agents' steps during a SYNC_DOWN among them) keeps bits 7:5 of every prefix
byte at 111; a copy step of SYNC_DOWN keeps them exactly when the byte it copies has them, if it is a prefix byte.  Which offset it copies
is the model's draw syncPick (log entry 5). -/
def Obligations.PrefixBitsAreKept : Prop :=
  (∀ s t : State, prefixesSound s → ¬copyingDown s → step s = .next t → prefixesSound t) ∧
  ∀ (s t : State) (pending : List Input) (rest : List Nat), prefixesSound s → sequencerMoves s pending → s.phase = .syncing .down rest →
    step s = .next t →
    syncPick rest s.draws ∈ rest ∧
    (prefixesSound t ↔ ∀ i, i < s.n → syncPick rest s.draws = 4 * i → s.mbByte (4 * i) &&& 0xE0 = 0xE0)

/-- R263, R293: no step removes an entry of the fault log or the refusal mark, and a step adds at most one entry; frames already sent on a
port are never taken back (R74, R188). -/
def Obligations.RecordsOnlyGrow : Prop :=
  ∀ s t : State, step s = .next t →
    (t.faultLog = s.faultLog ∨ ∃ e, t.faultLog = s.faultLog ++ [e]) ∧ (s.refusalMark = true → t.refusalMark = true) ∧
    ∀ p, (t.port p).frames = (s.port p).frames ∨ ∃ f, (t.port p).frames = (s.port p).frames ++ [f]

/-- R39, R176, R201: from a sound state a step never stops: the model's own faults cannot be reached. -/
def Obligations.SoundStatesNeverStop : Prop :=
  ∀ s : State, ConfigSound s → WireSound s → ∃ t, step s = .next t

/-- R285, R286: from a sound state with no input pending, the sequencer is IDLE after at most 1 + FLEN(N) steps. -/
def Obligations.EveryCommandEnds : Prop :=
  ∀ s : State, ConfigSound s → WireSound s → s.inputs = [] →
    ∃ k t, k ≤ 1 + frameLength s.n ∧ core.run k s = .next t ∧ t.phase = .idle
end

