-- ==== Sys2Proof/Laws/Config.lean ====
section
/-! SUPPORT. The limits that the spec sets the OPEN parameters hold for every value of the opaque constants (92_eei_decisions.md D13, D14). -/

namespace Sys2Proof.Laws

/-- NUM_PORTS is in 1..16 (D14). -/
theorem numPorts_range : 1 ≤ Config.numPorts ∧ Config.numPorts ≤ 16 := ⟨Nat.succ_pos _, Config.extraPorts.isLt⟩

/-- PORT_MAP is injective (D14). -/
theorem portMap_injective : Function.Injective Config.portMap := fun _ _ h =>
  BitVec.eq_of_toNat_eq (Prod.mk.inj (Config.portPlaces.injective h)).2

/-- 0 < F_SCLK(hz) ≤ hz for hz > 0 (D13). -/
theorem fSclk_range (hz : Word) (h : hz ≠ 0) : 0 < Config.fSclk hz ∧ Config.fSclk hz ≤ hz.toNat := by
  have hpos : (0 : ℚ) < hz.toNat := by
    have : hz.toNat ≠ 0 := fun e => h (BitVec.eq_of_toNat_eq (by simpa using e))
    exact_mod_cast Nat.pos_of_ne_zero this
  unfold Config.fSclk
  generalize (Config.sclkChoice hz).1 = a
  generalize (Config.sclkChoice hz).2 = b
  have hb : (0 : ℚ) < ((b + 1 : Nat) : ℚ) := by exact_mod_cast Nat.succ_pos b
  have ha : (0 : ℚ) < ((a % (b + 1) + 1 : Nat) : ℚ) := by exact_mod_cast Nat.succ_pos _
  have hle : ((a % (b + 1) + 1 : Nat) : ℚ) ≤ ((b + 1 : Nat) : ℚ) := by exact_mod_cast Nat.mod_lt a (Nat.succ_pos b)
  exact ⟨mul_pos hpos (div_pos ha hb), mul_le_of_le_one_right hpos.le ((div_le_one hb).mpr hle)⟩

end Sys2Proof.Laws
end

