-- ==== Sys2Proof/Laws/Memory.lean ====
section
/-! SUPPORT. The laws of the byte buffers: read after write, tabulated buffers, and that every operation keeps the canonical form. -/

namespace Sys2Proof.Laws

open Sys2Proof.Machine

theorem read_nil (a : Nat) : Memory.read [] a = 0 := rfl

theorem read_cons (c : Host.Cell) (m : Memory) (a : Nat) :
    Memory.read (c :: m) a = if c.1 = a then c.2 else Memory.read m a := rfl

theorem read_without (m : Memory) (a b : Nat) : Memory.read (Memory.without m a) b = if b = a then 0 else Memory.read m b := by
  induction m with
  | nil => simp [Memory.without, Memory.read]
  | cons c m ih =>
    rcases c with ⟨k, v⟩
    by_cases h : k = a
    · subst h
      have hw : Memory.without ((k, v) :: m) k = Memory.without m k := by simp [Memory.without]
      rw [hw, ih, read_cons]
      by_cases hb : b = k
      · simp [hb]
      · simp [hb, Ne.symm hb]
    · have hw : Memory.without ((k, v) :: m) a = (k, v) :: Memory.without m a := by simp [Memory.without, h]
      rw [hw, read_cons, read_cons, ih]
      by_cases hb : k = b
      · subst hb; simp [h]
      · simp [hb]

theorem read_insert (m : Memory) (a b : Nat) (v : Byte) (h : ∀ c ∈ m, c.1 ≠ a) :
    Memory.read (Memory.insert m a v) b = if b = a then v else Memory.read m b := by
  induction m with
  | nil => simp [Memory.insert, Memory.read, eq_comm]
  | cons c m ih =>
    rcases c with ⟨k, w⟩
    have hk : k ≠ a := h (k, w) (by simp)
    have ih := ih fun c hc => h c (by simp [hc])
    by_cases hlt : a < k
    · simp [Memory.insert, hlt, Memory.read, eq_comm]
    · by_cases hb : k = b
      · subst hb; simp [Memory.insert, hlt, Memory.read, hk]
      · simp [Memory.insert, hlt, Memory.read, hb, ih]

/-- A read after a write: the byte written at its own offset, the old byte at every other. -/
@[simp] theorem read_write (m : Memory) (a b : Nat) (v : Byte) :
    Memory.read (Memory.write m a v) b = if b = a then v else Memory.read m b := by
  unfold Memory.write
  split
  · rename_i h; rw [read_without, h]
  · rw [read_insert, read_without]
    · split <;> simp_all
    · intro c hc; simpa [Memory.without] using (List.mem_filter.mp hc).2

theorem read_write_same (m : Memory) (a : Nat) (v : Byte) : Memory.read (Memory.write m a v) a = v := by simp

theorem read_write_other (m : Memory) (a b : Nat) (v : Byte) (h : b ≠ a) :
    Memory.read (Memory.write m a v) b = Memory.read m b := by simp [h]

theorem read_tabulateFrom (f : Nat → Byte) (a count j : Nat) :
    Memory.read (Memory.tabulateFrom f a count) j = if a ≤ j ∧ j < a + count then f j else 0 := by
  induction count generalizing a with
  | zero =>
    rw [if_neg (by omega)]; rfl
  | succ k ih =>
    have hstep : Memory.read (Memory.tabulateFrom f a (k + 1)) j =
        if a = j then f a else Memory.read (Memory.tabulateFrom f (a + 1) k) j := by
      by_cases hz : f a = 0
      · by_cases hj : a = j
        · have hno : ¬(a + 1 ≤ j ∧ j < a + 1 + k) := by omega
          simp only [Memory.tabulateFrom, hz, ih, if_true]; rw [if_neg hno, if_pos hj]
        · simp only [Memory.tabulateFrom, hz, if_true]; rw [if_neg hj]
      · simp only [Memory.tabulateFrom, if_neg hz]; rfl
    rw [hstep, ih]
    by_cases hj : a = j
    · subst hj; rw [if_pos rfl, if_pos (by omega)]
    · rw [if_neg hj]
      by_cases h1 : a + 1 ≤ j ∧ j < a + 1 + k
      · rw [if_pos h1, if_pos (by omega)]
      · rw [if_neg h1, if_neg (by omega)]

/-- The bytes of a tabulated buffer. -/
@[simp] theorem read_tabulate (len : Nat) (f : Nat → Byte) (j : Nat) :
    Memory.read (Memory.tabulate len f) j = if j < len then f j else 0 := by
  simp [Memory.tabulate, read_tabulateFrom]

/-! ### The canonical form -/

theorem wf_nil : Memory.wf [] := by decide

theorem wf_without (m : Memory) (a : Nat) (h : Memory.wf m) : Memory.wf (Memory.without m a) :=
  ⟨h.1.sublist List.filter_sublist, fun c hc => h.2 c (List.mem_filter.mp hc).1⟩

theorem mem_insert (m : Memory) (a : Nat) (v : Byte) (c : Host.Cell) (h : c ∈ Memory.insert m a v) : c = (a, v) ∨ c ∈ m := by
  induction m with
  | nil => simpa [Memory.insert] using h
  | cons d m ih =>
    rcases d with ⟨k, w⟩
    by_cases hlt : a < k
    · simpa [Memory.insert, hlt] using h
    · simp only [Memory.insert, hlt, if_false, List.mem_cons] at h
      rcases h with h | h
      · simp [h]
      · rcases ih h with h | h <;> simp [h]

theorem wf_insert (m : Memory) (a : Nat) (v : Byte) (hm : Memory.wf m) (ha : ∀ c ∈ m, c.1 ≠ a) (hv : v ≠ 0) :
    Memory.wf (Memory.insert m a v) := by
  refine ⟨?_, fun c hc => ?_⟩
  · have hs := hm.1
    clear hm
    induction m with
    | nil => simp [Memory.insert]
    | cons d m ih =>
      rcases d with ⟨k, w⟩
      have hka : k ≠ a := ha (k, w) (by simp)
      rw [List.pairwise_cons] at hs
      by_cases hlt : a < k
      · simp only [Memory.insert, hlt, if_true, List.pairwise_cons]
        refine ⟨fun c hc => ?_, hs⟩
        rcases List.mem_cons.mp hc with h | h
        · subst h; exact hlt
        · exact Nat.lt_trans hlt (hs.1 c h)
      · simp only [Memory.insert, hlt, if_false, List.pairwise_cons]
        refine ⟨fun c hc => ?_, ih (fun c hc => ha c (by simp [hc])) hs.2⟩
        rcases mem_insert m a v c hc with h | h
        · subst h; show k < a; omega
        · exact hs.1 c h
  · rcases mem_insert m a v c hc with h | h
    · subst h; exact hv
    · exact hm.2 c h

/-- Writing keeps the canonical form. -/
theorem wf_write (m : Memory) (a : Nat) (v : Byte) (h : Memory.wf m) : Memory.wf (Memory.write m a v) := by
  unfold Memory.write
  split
  · exact wf_without m a h
  · rename_i hv
    refine wf_insert _ a v (wf_without m a h) (fun c hc => ?_) hv
    simpa [Memory.without] using (List.mem_filter.mp hc).2

theorem mem_tabulateFrom (f : Nat → Byte) (a count : Nat) (c : Host.Cell) (h : c ∈ Memory.tabulateFrom f a count) :
    a ≤ c.1 ∧ c.1 < a + count ∧ c.2 ≠ 0 := by
  induction count generalizing a with
  | zero => simp [Memory.tabulateFrom] at h
  | succ k ih =>
    by_cases hz : f a = 0
    · simp only [Memory.tabulateFrom, hz, if_true] at h
      obtain ⟨h1, h2, h3⟩ := ih (a + 1) h
      exact ⟨by omega, by omega, h3⟩
    · simp only [Memory.tabulateFrom, hz, if_false, List.mem_cons] at h
      rcases h with h | h
      · subst h; exact ⟨Nat.le_refl _, by simp, hz⟩
      · obtain ⟨h1, h2, h3⟩ := ih (a + 1) h
        exact ⟨by omega, by omega, h3⟩

theorem sorted_tabulateFrom (f : Nat → Byte) (a count : Nat) :
    (Memory.tabulateFrom f a count).Pairwise (fun c d : Host.Cell => c.1 < d.1) := by
  induction count generalizing a with
  | zero => simp [Memory.tabulateFrom]
  | succ k ih =>
    by_cases hz : f a = 0
    · simpa [Memory.tabulateFrom, hz] using ih (a + 1)
    · simp only [Memory.tabulateFrom, hz, if_false, List.pairwise_cons]
      exact ⟨fun c hc => (mem_tabulateFrom f (a + 1) k c hc).1, ih (a + 1)⟩

/-- A tabulated buffer is in canonical form. -/
theorem wf_tabulate (len : Nat) (f : Nat → Byte) : Memory.wf (Memory.tabulate len f) :=
  ⟨sorted_tabulateFrom f 0 len, fun c hc => (mem_tabulateFrom f 0 len c hc).2.2⟩

/-- The memory operations keep the canonical form: the three of them at once. -/
theorem memory_ops_keep_wf (m : Memory) (h : Memory.wf m) (a : Nat) (v : Byte) (len : Nat) (f : Nat → Byte) :
    Memory.wf (Memory.write m a v) ∧ Memory.wf (Memory.without m a) ∧ Memory.wf (Memory.tabulate len f) :=
  ⟨wf_write m a v h, wf_without m a h, wf_tabulate len f⟩

/-- The state after reset has both buffers in canonical form. -/
theorem reset_buffers_wf : Memory.wf State.reset.fb ∧ Memory.wf State.reset.mb := ⟨wf_nil, wf_nil⟩

/-! ### The bound on the offsets -/

theorem within_tabulate (len : Nat) (f : Nat → Byte) : Memory.within (Memory.tabulate len f) len := fun c hc => by
  have := (mem_tabulateFrom f 0 len c hc).2.1; omega

theorem within_write (m : Memory) (a len : Nat) (v : Byte) (h : Memory.within m len) (ha : a < len) :
    Memory.within (Memory.write m a v) len := by
  unfold Memory.write
  have hw : Memory.within (Memory.without m a) len := fun c hc => h c (List.mem_filter.mp hc).1
  split
  · exact hw
  · intro c hc
    rcases mem_insert _ a v c hc with h' | h'
    · subst h'; exact ha
    · exact hw c h'

/-- A byte at or past the bound of a buffer reads as 0. -/
theorem read_past (m : Memory) (len a : Nat) (h : Memory.within m len) (ha : len ≤ a) : Memory.read m a = 0 := by
  induction m with
  | nil => rfl
  | cons c m ih =>
    have hc := h c (by simp)
    rw [read_cons, if_neg (by omega)]
    exact ih fun d hd => h d (by simp [hd])

theorem bytes_length (m : Memory) (len : Nat) : (Memory.bytes m len).length = len := by simp [Memory.bytes]

theorem bytes_getElem (m : Memory) (len j : Nat) (h : j < (Memory.bytes m len).length) : (Memory.bytes m len)[j] = Memory.read m j := by
  simp [Memory.bytes]

end Sys2Proof.Laws
end

