-- ==== Sys2Proof/Laws/State.lean ====
section
/-! SUPPORT. One lemma per field per update of the shared operations, so that no later proof unfolds a record update. -/

namespace Sys2Proof.Laws

open Sys2Proof.Machine

/-! ### `State.writeFb` -/

@[simp] theorem writeFb_arg (s : State) (j : Nat) (v : Byte) : (s.writeFb j v).arg = s.arg := rfl
@[simp] theorem writeFb_status (s : State) (j : Nat) (v : Byte) : (s.writeFb j v).status = s.status := rfl
@[simp] theorem writeFb_rdata (s : State) (j : Nat) (v : Byte) : (s.writeFb j v).rdata = s.rdata := rfl
@[simp] theorem writeFb_nleds (s : State) (j : Nat) (v : Byte) : (s.writeFb j v).nleds = s.nleds := rfl
@[simp] theorem writeFb_portcfg (s : State) (j : Nat) (v : Byte) : (s.writeFb j v).portcfg = s.portcfg := rfl
@[simp] theorem writeFb_clkhz (s : State) (j : Nat) (v : Byte) : (s.writeFb j v).clkhz = s.clkhz := rfl
@[simp] theorem writeFb_cmdL (s : State) (j : Nat) (v : Byte) : (s.writeFb j v).cmdL = s.cmdL := rfl
@[simp] theorem writeFb_argL (s : State) (j : Nat) (v : Byte) : (s.writeFb j v).argL = s.argL := rfl
@[simp] theorem writeFb_phase (s : State) (j : Nat) (v : Byte) : (s.writeFb j v).phase = s.phase := rfl
@[simp] theorem writeFb_fb (s : State) (j : Nat) (v : Byte) : (s.writeFb j v).fb = Memory.write s.fb j v := rfl
@[simp] theorem writeFb_mb (s : State) (j : Nat) (v : Byte) : (s.writeFb j v).mb = s.mb := rfl
@[simp] theorem writeFb_ports (s : State) (j : Nat) (v : Byte) : (s.writeFb j v).ports = s.ports := rfl
@[simp] theorem writeFb_portFault (s : State) (j : Nat) (v : Byte) : (s.writeFb j v).portFault = s.portFault := rfl
@[simp] theorem writeFb_inputs (s : State) (j : Nat) (v : Byte) : (s.writeFb j v).inputs = s.inputs := rfl
@[simp] theorem writeFb_hostAnswer (s : State) (j : Nat) (v : Byte) : (s.writeFb j v).hostAnswer = s.hostAnswer := rfl
@[simp] theorem writeFb_mirrorAnswer (s : State) (j : Nat) (v : Byte) : (s.writeFb j v).mirrorAnswer = s.mirrorAnswer := rfl
@[simp] theorem writeFb_faultLog (s : State) (j : Nat) (v : Byte) : (s.writeFb j v).faultLog = s.faultLog := rfl
@[simp] theorem writeFb_refusalMark (s : State) (j : Nat) (v : Byte) : (s.writeFb j v).refusalMark = s.refusalMark := rfl
@[simp] theorem writeFb_draws (s : State) (j : Nat) (v : Byte) : (s.writeFb j v).draws = s.draws := rfl

/-! ### `State.writeMb` -/

@[simp] theorem writeMb_arg (s : State) (j : Nat) (v : Byte) : (s.writeMb j v).arg = s.arg := rfl
@[simp] theorem writeMb_status (s : State) (j : Nat) (v : Byte) : (s.writeMb j v).status = s.status := rfl
@[simp] theorem writeMb_rdata (s : State) (j : Nat) (v : Byte) : (s.writeMb j v).rdata = s.rdata := rfl
@[simp] theorem writeMb_nleds (s : State) (j : Nat) (v : Byte) : (s.writeMb j v).nleds = s.nleds := rfl
@[simp] theorem writeMb_portcfg (s : State) (j : Nat) (v : Byte) : (s.writeMb j v).portcfg = s.portcfg := rfl
@[simp] theorem writeMb_clkhz (s : State) (j : Nat) (v : Byte) : (s.writeMb j v).clkhz = s.clkhz := rfl
@[simp] theorem writeMb_cmdL (s : State) (j : Nat) (v : Byte) : (s.writeMb j v).cmdL = s.cmdL := rfl
@[simp] theorem writeMb_argL (s : State) (j : Nat) (v : Byte) : (s.writeMb j v).argL = s.argL := rfl
@[simp] theorem writeMb_phase (s : State) (j : Nat) (v : Byte) : (s.writeMb j v).phase = s.phase := rfl
@[simp] theorem writeMb_fb (s : State) (j : Nat) (v : Byte) : (s.writeMb j v).fb = s.fb := rfl
@[simp] theorem writeMb_mb (s : State) (j : Nat) (v : Byte) : (s.writeMb j v).mb = Memory.write s.mb j v := rfl
@[simp] theorem writeMb_ports (s : State) (j : Nat) (v : Byte) : (s.writeMb j v).ports = s.ports := rfl
@[simp] theorem writeMb_portFault (s : State) (j : Nat) (v : Byte) : (s.writeMb j v).portFault = s.portFault := rfl
@[simp] theorem writeMb_inputs (s : State) (j : Nat) (v : Byte) : (s.writeMb j v).inputs = s.inputs := rfl
@[simp] theorem writeMb_hostAnswer (s : State) (j : Nat) (v : Byte) : (s.writeMb j v).hostAnswer = s.hostAnswer := rfl
@[simp] theorem writeMb_mirrorAnswer (s : State) (j : Nat) (v : Byte) : (s.writeMb j v).mirrorAnswer = s.mirrorAnswer := rfl
@[simp] theorem writeMb_faultLog (s : State) (j : Nat) (v : Byte) : (s.writeMb j v).faultLog = s.faultLog := rfl
@[simp] theorem writeMb_refusalMark (s : State) (j : Nat) (v : Byte) : (s.writeMb j v).refusalMark = s.refusalMark := rfl
@[simp] theorem writeMb_draws (s : State) (j : Nat) (v : Byte) : (s.writeMb j v).draws = s.draws := rfl

/-! ### `State.modifyPort` -/

@[simp] theorem modifyPort_arg (s : State) (p : PortIndex) (f : Port → Port) : (s.modifyPort p f).arg = s.arg := rfl
@[simp] theorem modifyPort_status (s : State) (p : PortIndex) (f : Port → Port) : (s.modifyPort p f).status = s.status := rfl
@[simp] theorem modifyPort_rdata (s : State) (p : PortIndex) (f : Port → Port) : (s.modifyPort p f).rdata = s.rdata := rfl
@[simp] theorem modifyPort_nleds (s : State) (p : PortIndex) (f : Port → Port) : (s.modifyPort p f).nleds = s.nleds := rfl
@[simp] theorem modifyPort_portcfg (s : State) (p : PortIndex) (f : Port → Port) : (s.modifyPort p f).portcfg = s.portcfg := rfl
@[simp] theorem modifyPort_clkhz (s : State) (p : PortIndex) (f : Port → Port) : (s.modifyPort p f).clkhz = s.clkhz := rfl
@[simp] theorem modifyPort_cmdL (s : State) (p : PortIndex) (f : Port → Port) : (s.modifyPort p f).cmdL = s.cmdL := rfl
@[simp] theorem modifyPort_argL (s : State) (p : PortIndex) (f : Port → Port) : (s.modifyPort p f).argL = s.argL := rfl
@[simp] theorem modifyPort_phase (s : State) (p : PortIndex) (f : Port → Port) : (s.modifyPort p f).phase = s.phase := rfl
@[simp] theorem modifyPort_fb (s : State) (p : PortIndex) (f : Port → Port) : (s.modifyPort p f).fb = s.fb := rfl
@[simp] theorem modifyPort_mb (s : State) (p : PortIndex) (f : Port → Port) : (s.modifyPort p f).mb = s.mb := rfl
@[simp] theorem modifyPort_ports (s : State) (p : PortIndex) (f : Port → Port) : (s.modifyPort p f).ports = s.ports.set p.toNat (f (s.port p)) p.isLt := rfl
@[simp] theorem modifyPort_portFault (s : State) (p : PortIndex) (f : Port → Port) : (s.modifyPort p f).portFault = s.portFault := rfl
@[simp] theorem modifyPort_inputs (s : State) (p : PortIndex) (f : Port → Port) : (s.modifyPort p f).inputs = s.inputs := rfl
@[simp] theorem modifyPort_hostAnswer (s : State) (p : PortIndex) (f : Port → Port) : (s.modifyPort p f).hostAnswer = s.hostAnswer := rfl
@[simp] theorem modifyPort_mirrorAnswer (s : State) (p : PortIndex) (f : Port → Port) : (s.modifyPort p f).mirrorAnswer = s.mirrorAnswer := rfl
@[simp] theorem modifyPort_faultLog (s : State) (p : PortIndex) (f : Port → Port) : (s.modifyPort p f).faultLog = s.faultLog := rfl
@[simp] theorem modifyPort_refusalMark (s : State) (p : PortIndex) (f : Port → Port) : (s.modifyPort p f).refusalMark = s.refusalMark := rfl
@[simp] theorem modifyPort_draws (s : State) (p : PortIndex) (f : Port → Port) : (s.modifyPort p f).draws = s.draws := rfl

/-! ### `State.releasePort` -/

@[simp] theorem releasePort_arg (s : State) (cut : List Bool) : (s.releasePort cut).arg = s.arg := rfl
@[simp] theorem releasePort_status (s : State) (cut : List Bool) : (s.releasePort cut).status = s.status := rfl
@[simp] theorem releasePort_rdata (s : State) (cut : List Bool) : (s.releasePort cut).rdata = s.rdata := rfl
@[simp] theorem releasePort_nleds (s : State) (cut : List Bool) : (s.releasePort cut).nleds = s.nleds := rfl
@[simp] theorem releasePort_portcfg (s : State) (cut : List Bool) : (s.releasePort cut).portcfg = s.portcfg := rfl
@[simp] theorem releasePort_clkhz (s : State) (cut : List Bool) : (s.releasePort cut).clkhz = s.clkhz := rfl
@[simp] theorem releasePort_cmdL (s : State) (cut : List Bool) : (s.releasePort cut).cmdL = s.cmdL := rfl
@[simp] theorem releasePort_argL (s : State) (cut : List Bool) : (s.releasePort cut).argL = s.argL := rfl
@[simp] theorem releasePort_phase (s : State) (cut : List Bool) : (s.releasePort cut).phase = s.phase := rfl
@[simp] theorem releasePort_fb (s : State) (cut : List Bool) : (s.releasePort cut).fb = s.fb := rfl
@[simp] theorem releasePort_mb (s : State) (cut : List Bool) : (s.releasePort cut).mb = s.mb := rfl
@[simp] theorem releasePort_ports (s : State) (cut : List Bool) : (s.releasePort cut).ports = s.ports.set s.portcfg.toNat ((s.port s.portcfg).release cut) s.portcfg.isLt := rfl
@[simp] theorem releasePort_portFault (s : State) (cut : List Bool) : (s.releasePort cut).portFault = s.portFault := rfl
@[simp] theorem releasePort_inputs (s : State) (cut : List Bool) : (s.releasePort cut).inputs = s.inputs := rfl
@[simp] theorem releasePort_hostAnswer (s : State) (cut : List Bool) : (s.releasePort cut).hostAnswer = s.hostAnswer := rfl
@[simp] theorem releasePort_mirrorAnswer (s : State) (cut : List Bool) : (s.releasePort cut).mirrorAnswer = s.mirrorAnswer := rfl
@[simp] theorem releasePort_faultLog (s : State) (cut : List Bool) : (s.releasePort cut).faultLog = s.faultLog := rfl
@[simp] theorem releasePort_refusalMark (s : State) (cut : List Bool) : (s.releasePort cut).refusalMark = s.refusalMark := rfl
@[simp] theorem releasePort_draws (s : State) (cut : List Bool) : (s.releasePort cut).draws = s.draws := rfl

/-! ### `State.drawn` -/

@[simp] theorem drawn_arg (s : State) : (s.drawn).arg = s.arg := rfl
@[simp] theorem drawn_status (s : State) : (s.drawn).status = s.status := rfl
@[simp] theorem drawn_rdata (s : State) : (s.drawn).rdata = s.rdata := rfl
@[simp] theorem drawn_nleds (s : State) : (s.drawn).nleds = s.nleds := rfl
@[simp] theorem drawn_portcfg (s : State) : (s.drawn).portcfg = s.portcfg := rfl
@[simp] theorem drawn_clkhz (s : State) : (s.drawn).clkhz = s.clkhz := rfl
@[simp] theorem drawn_cmdL (s : State) : (s.drawn).cmdL = s.cmdL := rfl
@[simp] theorem drawn_argL (s : State) : (s.drawn).argL = s.argL := rfl
@[simp] theorem drawn_phase (s : State) : (s.drawn).phase = s.phase := rfl
@[simp] theorem drawn_fb (s : State) : (s.drawn).fb = s.fb := rfl
@[simp] theorem drawn_mb (s : State) : (s.drawn).mb = s.mb := rfl
@[simp] theorem drawn_ports (s : State) : (s.drawn).ports = s.ports := rfl
@[simp] theorem drawn_portFault (s : State) : (s.drawn).portFault = s.portFault := rfl
@[simp] theorem drawn_inputs (s : State) : (s.drawn).inputs = s.inputs := rfl
@[simp] theorem drawn_hostAnswer (s : State) : (s.drawn).hostAnswer = s.hostAnswer := rfl
@[simp] theorem drawn_mirrorAnswer (s : State) : (s.drawn).mirrorAnswer = s.mirrorAnswer := rfl
@[simp] theorem drawn_faultLog (s : State) : (s.drawn).faultLog = s.faultLog := rfl
@[simp] theorem drawn_refusalMark (s : State) : (s.drawn).refusalMark = s.refusalMark := rfl
@[simp] theorem drawn_draws (s : State) : (s.drawn).draws = s.draws + 1 := rfl

/-! ### `complete` -/

@[simp] theorem complete_arg (s : State) (r : Option Word) : (complete r s).arg = s.arg := rfl
@[simp] theorem complete_status (s : State) (r : Option Word) : (complete r s).status = s.status.succeed (opField s.cmdL) := rfl
@[simp] theorem complete_rdata (s : State) (r : Option Word) : (complete r s).rdata = r.getD s.rdata := rfl
@[simp] theorem complete_nleds (s : State) (r : Option Word) : (complete r s).nleds = s.nleds := rfl
@[simp] theorem complete_portcfg (s : State) (r : Option Word) : (complete r s).portcfg = s.portcfg := rfl
@[simp] theorem complete_clkhz (s : State) (r : Option Word) : (complete r s).clkhz = s.clkhz := rfl
@[simp] theorem complete_cmdL (s : State) (r : Option Word) : (complete r s).cmdL = s.cmdL := rfl
@[simp] theorem complete_argL (s : State) (r : Option Word) : (complete r s).argL = s.argL := rfl
@[simp] theorem complete_phase (s : State) (r : Option Word) : (complete r s).phase = .idle := rfl
@[simp] theorem complete_fb (s : State) (r : Option Word) : (complete r s).fb = s.fb := rfl
@[simp] theorem complete_mb (s : State) (r : Option Word) : (complete r s).mb = s.mb := rfl
@[simp] theorem complete_ports (s : State) (r : Option Word) : (complete r s).ports = s.ports := rfl
@[simp] theorem complete_portFault (s : State) (r : Option Word) : (complete r s).portFault = s.portFault := rfl
@[simp] theorem complete_inputs (s : State) (r : Option Word) : (complete r s).inputs = s.inputs := rfl
@[simp] theorem complete_hostAnswer (s : State) (r : Option Word) : (complete r s).hostAnswer = s.hostAnswer := rfl
@[simp] theorem complete_mirrorAnswer (s : State) (r : Option Word) : (complete r s).mirrorAnswer = s.mirrorAnswer := rfl
@[simp] theorem complete_faultLog (s : State) (r : Option Word) : (complete r s).faultLog = s.faultLog := rfl
@[simp] theorem complete_refusalMark (s : State) (r : Option Word) : (complete r s).refusalMark = s.refusalMark := rfl
@[simp] theorem complete_draws (s : State) (r : Option Word) : (complete r s).draws = s.draws := rfl

/-! ### `haltBlock` -/

@[simp] theorem haltBlock_arg (s : State) : (haltBlock s).arg = s.arg := rfl
@[simp] theorem haltBlock_status (s : State) : (haltBlock s).status = s.status.halted := rfl
@[simp] theorem haltBlock_rdata (s : State) : (haltBlock s).rdata = s.rdata := rfl
@[simp] theorem haltBlock_nleds (s : State) : (haltBlock s).nleds = s.nleds := rfl
@[simp] theorem haltBlock_portcfg (s : State) : (haltBlock s).portcfg = s.portcfg := rfl
@[simp] theorem haltBlock_clkhz (s : State) : (haltBlock s).clkhz = s.clkhz := rfl
@[simp] theorem haltBlock_cmdL (s : State) : (haltBlock s).cmdL = s.cmdL := rfl
@[simp] theorem haltBlock_argL (s : State) : (haltBlock s).argL = s.argL := rfl
@[simp] theorem haltBlock_phase (s : State) : (haltBlock s).phase = s.phase := rfl
@[simp] theorem haltBlock_fb (s : State) : (haltBlock s).fb = s.fb := rfl
@[simp] theorem haltBlock_mb (s : State) : (haltBlock s).mb = s.mb := rfl
@[simp] theorem haltBlock_ports (s : State) : (haltBlock s).ports = (s.releasePort []).ports := rfl
@[simp] theorem haltBlock_portFault (s : State) : (haltBlock s).portFault = s.portFault := rfl
@[simp] theorem haltBlock_inputs (s : State) : (haltBlock s).inputs = s.inputs := rfl
@[simp] theorem haltBlock_hostAnswer (s : State) : (haltBlock s).hostAnswer = s.hostAnswer := rfl
@[simp] theorem haltBlock_mirrorAnswer (s : State) : (haltBlock s).mirrorAnswer = s.mirrorAnswer := rfl
@[simp] theorem haltBlock_faultLog (s : State) : (haltBlock s).faultLog = s.faultLog := rfl
@[simp] theorem haltBlock_refusalMark (s : State) : (haltBlock s).refusalMark = s.refusalMark := rfl
@[simp] theorem haltBlock_draws (s : State) : (haltBlock s).draws = s.draws := rfl

/-! ### `State.enter` -/

@[simp] theorem enter_arg (s : State) (p : Phase) : (s.enter p).arg = s.arg := rfl
@[simp] theorem enter_status (s : State) (p : Phase) : (s.enter p).status = s.status := rfl
@[simp] theorem enter_rdata (s : State) (p : Phase) : (s.enter p).rdata = s.rdata := rfl
@[simp] theorem enter_nleds (s : State) (p : Phase) : (s.enter p).nleds = s.nleds := rfl
@[simp] theorem enter_portcfg (s : State) (p : Phase) : (s.enter p).portcfg = s.portcfg := rfl
@[simp] theorem enter_clkhz (s : State) (p : Phase) : (s.enter p).clkhz = s.clkhz := rfl
@[simp] theorem enter_cmdL (s : State) (p : Phase) : (s.enter p).cmdL = s.cmdL := rfl
@[simp] theorem enter_argL (s : State) (p : Phase) : (s.enter p).argL = s.argL := rfl
@[simp] theorem enter_phase (s : State) (p : Phase) : (s.enter p).phase = p := rfl
@[simp] theorem enter_fb (s : State) (p : Phase) : (s.enter p).fb = s.fb := rfl
@[simp] theorem enter_mb (s : State) (p : Phase) : (s.enter p).mb = s.mb := rfl
@[simp] theorem enter_ports (s : State) (p : Phase) : (s.enter p).ports = s.ports := rfl
@[simp] theorem enter_portFault (s : State) (p : Phase) : (s.enter p).portFault = s.portFault := rfl
@[simp] theorem enter_inputs (s : State) (p : Phase) : (s.enter p).inputs = s.inputs := rfl
@[simp] theorem enter_hostAnswer (s : State) (p : Phase) : (s.enter p).hostAnswer = s.hostAnswer := rfl
@[simp] theorem enter_mirrorAnswer (s : State) (p : Phase) : (s.enter p).mirrorAnswer = s.mirrorAnswer := rfl
@[simp] theorem enter_faultLog (s : State) (p : Phase) : (s.enter p).faultLog = s.faultLog := rfl
@[simp] theorem enter_refusalMark (s : State) (p : Phase) : (s.enter p).refusalMark = s.refusalMark := rfl
@[simp] theorem enter_draws (s : State) (p : Phase) : (s.enter p).draws = s.draws := rfl

/-! ### `State.answerHost` -/

@[simp] theorem answerHost_arg (s : State) (a : HostAnswer) : (s.answerHost a).arg = s.arg := rfl
@[simp] theorem answerHost_status (s : State) (a : HostAnswer) : (s.answerHost a).status = s.status := rfl
@[simp] theorem answerHost_rdata (s : State) (a : HostAnswer) : (s.answerHost a).rdata = s.rdata := rfl
@[simp] theorem answerHost_nleds (s : State) (a : HostAnswer) : (s.answerHost a).nleds = s.nleds := rfl
@[simp] theorem answerHost_portcfg (s : State) (a : HostAnswer) : (s.answerHost a).portcfg = s.portcfg := rfl
@[simp] theorem answerHost_clkhz (s : State) (a : HostAnswer) : (s.answerHost a).clkhz = s.clkhz := rfl
@[simp] theorem answerHost_cmdL (s : State) (a : HostAnswer) : (s.answerHost a).cmdL = s.cmdL := rfl
@[simp] theorem answerHost_argL (s : State) (a : HostAnswer) : (s.answerHost a).argL = s.argL := rfl
@[simp] theorem answerHost_phase (s : State) (a : HostAnswer) : (s.answerHost a).phase = s.phase := rfl
@[simp] theorem answerHost_fb (s : State) (a : HostAnswer) : (s.answerHost a).fb = s.fb := rfl
@[simp] theorem answerHost_mb (s : State) (a : HostAnswer) : (s.answerHost a).mb = s.mb := rfl
@[simp] theorem answerHost_ports (s : State) (a : HostAnswer) : (s.answerHost a).ports = s.ports := rfl
@[simp] theorem answerHost_portFault (s : State) (a : HostAnswer) : (s.answerHost a).portFault = s.portFault := rfl
@[simp] theorem answerHost_inputs (s : State) (a : HostAnswer) : (s.answerHost a).inputs = s.inputs := rfl
@[simp] theorem answerHost_hostAnswer (s : State) (a : HostAnswer) : (s.answerHost a).hostAnswer = a := rfl
@[simp] theorem answerHost_mirrorAnswer (s : State) (a : HostAnswer) : (s.answerHost a).mirrorAnswer = s.mirrorAnswer := rfl
@[simp] theorem answerHost_faultLog (s : State) (a : HostAnswer) : (s.answerHost a).faultLog = s.faultLog := rfl
@[simp] theorem answerHost_refusalMark (s : State) (a : HostAnswer) : (s.answerHost a).refusalMark = s.refusalMark := rfl
@[simp] theorem answerHost_draws (s : State) (a : HostAnswer) : (s.answerHost a).draws = s.draws := rfl

/-! ### `State.answerMirror` -/

@[simp] theorem answerMirror_arg (s : State) (a : MirrorAnswer) : (s.answerMirror a).arg = s.arg := rfl
@[simp] theorem answerMirror_status (s : State) (a : MirrorAnswer) : (s.answerMirror a).status = s.status := rfl
@[simp] theorem answerMirror_rdata (s : State) (a : MirrorAnswer) : (s.answerMirror a).rdata = s.rdata := rfl
@[simp] theorem answerMirror_nleds (s : State) (a : MirrorAnswer) : (s.answerMirror a).nleds = s.nleds := rfl
@[simp] theorem answerMirror_portcfg (s : State) (a : MirrorAnswer) : (s.answerMirror a).portcfg = s.portcfg := rfl
@[simp] theorem answerMirror_clkhz (s : State) (a : MirrorAnswer) : (s.answerMirror a).clkhz = s.clkhz := rfl
@[simp] theorem answerMirror_cmdL (s : State) (a : MirrorAnswer) : (s.answerMirror a).cmdL = s.cmdL := rfl
@[simp] theorem answerMirror_argL (s : State) (a : MirrorAnswer) : (s.answerMirror a).argL = s.argL := rfl
@[simp] theorem answerMirror_phase (s : State) (a : MirrorAnswer) : (s.answerMirror a).phase = s.phase := rfl
@[simp] theorem answerMirror_fb (s : State) (a : MirrorAnswer) : (s.answerMirror a).fb = s.fb := rfl
@[simp] theorem answerMirror_mb (s : State) (a : MirrorAnswer) : (s.answerMirror a).mb = s.mb := rfl
@[simp] theorem answerMirror_ports (s : State) (a : MirrorAnswer) : (s.answerMirror a).ports = s.ports := rfl
@[simp] theorem answerMirror_portFault (s : State) (a : MirrorAnswer) : (s.answerMirror a).portFault = s.portFault := rfl
@[simp] theorem answerMirror_inputs (s : State) (a : MirrorAnswer) : (s.answerMirror a).inputs = s.inputs := rfl
@[simp] theorem answerMirror_hostAnswer (s : State) (a : MirrorAnswer) : (s.answerMirror a).hostAnswer = s.hostAnswer := rfl
@[simp] theorem answerMirror_mirrorAnswer (s : State) (a : MirrorAnswer) : (s.answerMirror a).mirrorAnswer = a := rfl
@[simp] theorem answerMirror_faultLog (s : State) (a : MirrorAnswer) : (s.answerMirror a).faultLog = s.faultLog := rfl
@[simp] theorem answerMirror_refusalMark (s : State) (a : MirrorAnswer) : (s.answerMirror a).refusalMark = s.refusalMark := rfl
@[simp] theorem answerMirror_draws (s : State) (a : MirrorAnswer) : (s.answerMirror a).draws = s.draws := rfl

/-! ### `State.mark` -/

@[simp] theorem mark_arg (s : State) : (s.mark).arg = s.arg := rfl
@[simp] theorem mark_status (s : State) : (s.mark).status = s.status := rfl
@[simp] theorem mark_rdata (s : State) : (s.mark).rdata = s.rdata := rfl
@[simp] theorem mark_nleds (s : State) : (s.mark).nleds = s.nleds := rfl
@[simp] theorem mark_portcfg (s : State) : (s.mark).portcfg = s.portcfg := rfl
@[simp] theorem mark_clkhz (s : State) : (s.mark).clkhz = s.clkhz := rfl
@[simp] theorem mark_cmdL (s : State) : (s.mark).cmdL = s.cmdL := rfl
@[simp] theorem mark_argL (s : State) : (s.mark).argL = s.argL := rfl
@[simp] theorem mark_phase (s : State) : (s.mark).phase = s.phase := rfl
@[simp] theorem mark_fb (s : State) : (s.mark).fb = s.fb := rfl
@[simp] theorem mark_mb (s : State) : (s.mark).mb = s.mb := rfl
@[simp] theorem mark_ports (s : State) : (s.mark).ports = s.ports := rfl
@[simp] theorem mark_portFault (s : State) : (s.mark).portFault = s.portFault := rfl
@[simp] theorem mark_inputs (s : State) : (s.mark).inputs = s.inputs := rfl
@[simp] theorem mark_hostAnswer (s : State) : (s.mark).hostAnswer = s.hostAnswer := rfl
@[simp] theorem mark_mirrorAnswer (s : State) : (s.mark).mirrorAnswer = s.mirrorAnswer := rfl
@[simp] theorem mark_faultLog (s : State) : (s.mark).faultLog = s.faultLog := rfl
@[simp] theorem mark_refusalMark (s : State) : (s.mark).refusalMark = true := rfl
@[simp] theorem mark_draws (s : State) : (s.mark).draws = s.draws := rfl

/-! ### `accept` -/

@[simp] theorem accept_arg (s : State) (v : Word) : (accept v s).arg = s.arg := rfl
@[simp] theorem accept_status (s : State) (v : Word) : (accept v s).status = s.status := rfl
@[simp] theorem accept_rdata (s : State) (v : Word) : (accept v s).rdata = s.rdata := rfl
@[simp] theorem accept_nleds (s : State) (v : Word) : (accept v s).nleds = s.nleds := rfl
@[simp] theorem accept_portcfg (s : State) (v : Word) : (accept v s).portcfg = s.portcfg := rfl
@[simp] theorem accept_clkhz (s : State) (v : Word) : (accept v s).clkhz = s.clkhz := rfl
@[simp] theorem accept_cmdL (s : State) (v : Word) : (accept v s).cmdL = v := rfl
@[simp] theorem accept_argL (s : State) (v : Word) : (accept v s).argL = s.arg := rfl
@[simp] theorem accept_phase (s : State) (v : Word) : (accept v s).phase = .accepted := rfl
@[simp] theorem accept_fb (s : State) (v : Word) : (accept v s).fb = s.fb := rfl
@[simp] theorem accept_mb (s : State) (v : Word) : (accept v s).mb = s.mb := rfl
@[simp] theorem accept_ports (s : State) (v : Word) : (accept v s).ports = s.ports := rfl
@[simp] theorem accept_portFault (s : State) (v : Word) : (accept v s).portFault = s.portFault := rfl
@[simp] theorem accept_inputs (s : State) (v : Word) : (accept v s).inputs = s.inputs := rfl
@[simp] theorem accept_hostAnswer (s : State) (v : Word) : (accept v s).hostAnswer = s.hostAnswer := rfl
@[simp] theorem accept_mirrorAnswer (s : State) (v : Word) : (accept v s).mirrorAnswer = s.mirrorAnswer := rfl
@[simp] theorem accept_faultLog (s : State) (v : Word) : (accept v s).faultLog = s.faultLog := rfl
@[simp] theorem accept_refusalMark (s : State) (v : Word) : (accept v s).refusalMark = s.refusalMark := rfl
@[simp] theorem accept_draws (s : State) (v : Word) : (accept v s).draws = s.draws := rfl

/-! ### `raise` -/

@[simp] theorem raise_arg (s : State) (c : Cause) (fatal : Bool) (info : Option Int) : (raise c fatal info s).arg = s.arg := by
  cases fatal <;> rfl
@[simp] theorem raise_status (s : State) (c : Cause) (fatal : Bool) (info : Option Int) : (raise c fatal info s).status = (if fatal then s.status.halted else s.status).fail (opField s.cmdL) c := by
  cases fatal <;> rfl
@[simp] theorem raise_rdata (s : State) (c : Cause) (fatal : Bool) (info : Option Int) : (raise c fatal info s).rdata = s.rdata := by
  cases fatal <;> rfl
@[simp] theorem raise_nleds (s : State) (c : Cause) (fatal : Bool) (info : Option Int) : (raise c fatal info s).nleds = s.nleds := by
  cases fatal <;> rfl
@[simp] theorem raise_portcfg (s : State) (c : Cause) (fatal : Bool) (info : Option Int) : (raise c fatal info s).portcfg = s.portcfg := by
  cases fatal <;> rfl
@[simp] theorem raise_clkhz (s : State) (c : Cause) (fatal : Bool) (info : Option Int) : (raise c fatal info s).clkhz = s.clkhz := by
  cases fatal <;> rfl
@[simp] theorem raise_cmdL (s : State) (c : Cause) (fatal : Bool) (info : Option Int) : (raise c fatal info s).cmdL = s.cmdL := by
  cases fatal <;> rfl
@[simp] theorem raise_argL (s : State) (c : Cause) (fatal : Bool) (info : Option Int) : (raise c fatal info s).argL = s.argL := by
  cases fatal <;> rfl
@[simp] theorem raise_phase (s : State) (c : Cause) (fatal : Bool) (info : Option Int) : (raise c fatal info s).phase = .idle := by
  cases fatal <;> rfl
@[simp] theorem raise_fb (s : State) (c : Cause) (fatal : Bool) (info : Option Int) : (raise c fatal info s).fb = s.fb := by
  cases fatal <;> rfl
@[simp] theorem raise_mb (s : State) (c : Cause) (fatal : Bool) (info : Option Int) : (raise c fatal info s).mb = s.mb := by
  cases fatal <;> rfl
@[simp] theorem raise_ports (s : State) (c : Cause) (fatal : Bool) (info : Option Int) : (raise c fatal info s).ports = (if fatal then s.releasePort [] else s).ports := by
  cases fatal <;> rfl
@[simp] theorem raise_portFault (s : State) (c : Cause) (fatal : Bool) (info : Option Int) : (raise c fatal info s).portFault = s.portFault := by
  cases fatal <;> rfl
@[simp] theorem raise_inputs (s : State) (c : Cause) (fatal : Bool) (info : Option Int) : (raise c fatal info s).inputs = s.inputs := by
  cases fatal <;> rfl
@[simp] theorem raise_hostAnswer (s : State) (c : Cause) (fatal : Bool) (info : Option Int) : (raise c fatal info s).hostAnswer = s.hostAnswer := by
  cases fatal <;> rfl
@[simp] theorem raise_mirrorAnswer (s : State) (c : Cause) (fatal : Bool) (info : Option Int) : (raise c fatal info s).mirrorAnswer = s.mirrorAnswer := by
  cases fatal <;> rfl
@[simp] theorem raise_faultLog (s : State) (c : Cause) (fatal : Bool) (info : Option Int) : (raise c fatal info s).faultLog = s.faultLog ++ [⟨opField s.cmdL, c, info⟩] := by
  cases fatal <;> rfl
@[simp] theorem raise_refusalMark (s : State) (c : Cause) (fatal : Bool) (info : Option Int) : (raise c fatal info s).refusalMark = s.refusalMark := by
  cases fatal <;> rfl
@[simp] theorem raise_draws (s : State) (c : Cause) (fatal : Bool) (info : Option Int) : (raise c fatal info s).draws = s.draws := by
  cases fatal <;> rfl

/-! ### STATUS -/

@[simp] theorem status_succeed_init (st : Status) (op : BitVec 4) : (st.succeed op).init = st.init := rfl
@[simp] theorem status_succeed_opened (st : Status) (op : BitVec 4) : (st.succeed op).opened = st.opened := rfl
@[simp] theorem status_succeed_halt (st : Status) (op : BitVec 4) : (st.succeed op).halt = st.halt := rfl
@[simp] theorem status_succeed_err (st : Status) (op : BitVec 4) : (st.succeed op).err = false := rfl
@[simp] theorem status_succeed_anyerr (st : Status) (op : BitVec 4) : (st.succeed op).anyerr = st.anyerr := rfl
@[simp] theorem status_succeed_ovr (st : Status) (op : BitVec 4) : (st.succeed op).ovr = st.ovr := rfl
@[simp] theorem status_succeed_cause (st : Status) (op : BitVec 4) : (st.succeed op).cause = .none := rfl
@[simp] theorem status_succeed_lastop (st : Status) (op : BitVec 4) : (st.succeed op).lastop = op := rfl

@[simp] theorem status_fail_init (st : Status) (op : BitVec 4) (c : Cause) : (st.fail op c).init = st.init := rfl
@[simp] theorem status_fail_opened (st : Status) (op : BitVec 4) (c : Cause) : (st.fail op c).opened = st.opened := rfl
@[simp] theorem status_fail_halt (st : Status) (op : BitVec 4) (c : Cause) : (st.fail op c).halt = st.halt := rfl
@[simp] theorem status_fail_err (st : Status) (op : BitVec 4) (c : Cause) : (st.fail op c).err = true := rfl
@[simp] theorem status_fail_anyerr (st : Status) (op : BitVec 4) (c : Cause) : (st.fail op c).anyerr = true := rfl
@[simp] theorem status_fail_ovr (st : Status) (op : BitVec 4) (c : Cause) : (st.fail op c).ovr = st.ovr := rfl
@[simp] theorem status_fail_cause (st : Status) (op : BitVec 4) (c : Cause) : (st.fail op c).cause = c := rfl
@[simp] theorem status_fail_lastop (st : Status) (op : BitVec 4) (c : Cause) : (st.fail op c).lastop = op := rfl

@[simp] theorem status_halted_init (st : Status) : (st.halted).init = st.init := rfl
@[simp] theorem status_halted_opened (st : Status) : (st.halted).opened = false := rfl
@[simp] theorem status_halted_halt (st : Status) : (st.halted).halt = true := rfl
@[simp] theorem status_halted_err (st : Status) : (st.halted).err = st.err := rfl
@[simp] theorem status_halted_anyerr (st : Status) : (st.halted).anyerr = st.anyerr := rfl
@[simp] theorem status_halted_ovr (st : Status) : (st.halted).ovr = st.ovr := rfl
@[simp] theorem status_halted_cause (st : Status) : (st.halted).cause = st.cause := rfl
@[simp] theorem status_halted_lastop (st : Status) : (st.halted).lastop = st.lastop := rfl

@[simp] theorem status_clearW1C_init (st : Status) (v : Word) : (st.clearW1C v).init = st.init := rfl
@[simp] theorem status_clearW1C_opened (st : Status) (v : Word) : (st.clearW1C v).opened = st.opened := rfl
@[simp] theorem status_clearW1C_halt (st : Status) (v : Word) : (st.clearW1C v).halt = st.halt := rfl
@[simp] theorem status_clearW1C_err (st : Status) (v : Word) : (st.clearW1C v).err = st.err := rfl
@[simp] theorem status_clearW1C_anyerr (st : Status) (v : Word) : (st.clearW1C v).anyerr = (st.anyerr && !v.getLsbD 5) := rfl
@[simp] theorem status_clearW1C_ovr (st : Status) (v : Word) : (st.clearW1C v).ovr = (st.ovr && !v.getLsbD 6) := rfl
@[simp] theorem status_clearW1C_cause (st : Status) (v : Word) : (st.clearW1C v).cause = st.cause := rfl
@[simp] theorem status_clearW1C_lastop (st : Status) (v : Word) : (st.clearW1C v).lastop = st.lastop := rfl

@[simp] theorem status_overrun_init (st : Status) : (st.overrun).init = st.init := rfl
@[simp] theorem status_overrun_opened (st : Status) : (st.overrun).opened = st.opened := rfl
@[simp] theorem status_overrun_halt (st : Status) : (st.overrun).halt = st.halt := rfl
@[simp] theorem status_overrun_err (st : Status) : (st.overrun).err = st.err := rfl
@[simp] theorem status_overrun_anyerr (st : Status) : (st.overrun).anyerr = st.anyerr := rfl
@[simp] theorem status_overrun_ovr (st : Status) : (st.overrun).ovr = true := rfl
@[simp] theorem status_overrun_cause (st : Status) : (st.overrun).cause = st.cause := rfl
@[simp] theorem status_overrun_lastop (st : Status) : (st.overrun).lastop = st.lastop := rfl

end Sys2Proof.Laws
end

