-- ==== Sys2Proof/Laws/Ops.lean ====
section
/-! SUPPORT. One lemma per shared operation that says everything it can do: ports, the checks before a body, the failure entry, the
copy step, and the inputs. -/

namespace Sys2Proof.Laws

open Sys2Proof.Machine

/-! ### Ports -/

@[simp] theorem port_modifyPort_same (s : State) (p : PortIndex) (f : Port → Port) : (s.modifyPort p f).port p = f (s.port p) := by
  simp [State.modifyPort, State.port]

@[simp] theorem port_modifyPort_other (s : State) (p q : PortIndex) (f : Port → Port) (h : q ≠ p) :
    (s.modifyPort p f).port q = s.port q := by
  have : p.toNat ≠ q.toNat := fun e => h (BitVec.eq_of_toNat_eq e.symm)
  simp [State.modifyPort, State.port, Vector.getElem_set_ne, this]

/-- A port after an update of port `p`. -/
theorem port_modifyPort (s : State) (p q : PortIndex) (f : Port → Port) :
    (s.modifyPort p f).port q = if q = p then f (s.port p) else s.port q := by
  split
  · rename_i h; subst h; simp
  · rename_i h; simp [h]

/-- A port after the selected port was released. -/
theorem port_releasePort (s : State) (cut : List Bool) (q : PortIndex) :
    (s.releasePort cut).port q = if q = s.portcfg then (s.port s.portcfg).release cut else s.port q :=
  port_modifyPort s s.portcfg q _

/-- A port depends on nothing of the state but `ports`. -/
theorem port_congr (s t : State) (p : PortIndex) (h : s.ports = t.ports) : s.port p = t.port p := by
  simp [State.port, h]

@[simp] theorem port_enter (s : State) (ph : Phase) (p : PortIndex) : (s.enter ph).port p = s.port p := rfl

@[simp] theorem port_complete (s : State) (r : Option Word) (p : PortIndex) : (complete r s).port p = s.port p := rfl

@[simp] theorem port_drawn (s : State) (p : PortIndex) : s.drawn.port p = s.port p := rfl

@[simp] theorem port_writeFb (s : State) (j : Nat) (v : Byte) (p : PortIndex) : (s.writeFb j v).port p = s.port p := rfl

@[simp] theorem port_writeMb (s : State) (j : Nat) (v : Byte) (p : PortIndex) : (s.writeMb j v).port p = s.port p := rfl

/-- The ports after a failure: the selected one is released if the failure is fatal. -/
theorem port_raise (s : State) (c : Cause) (fatal : Bool) (info : Option Int) (p : PortIndex) :
    (raise c fatal info s).port p = if fatal then (s.releasePort []).port p else s.port p := by cases fatal <;> rfl

/-- The ports after one byte was sent. -/
theorem port_sendByte (s : State) (k : Nat) (p : PortIndex) :
    (sendByte k s).port p = if p = s.portcfg then (s.port s.portcfg).emit (s.frameByte k) else s.port p :=
  port_modifyPort s s.portcfg p _

theorem release_levels (p : Port) (cut : List Bool) : (p.release cut).levels = Levels.idle := rfl

theorem release_live (p : Port) (cut : List Bool) : (p.release cut).live = [] := rfl

/-- An idle port with nothing in progress is left as it is by a release. -/
theorem release_idle (p : Port) (cut : List Bool) (hl : p.levels = Levels.idle) (hv : p.live = []) : p.release cut = p := by
  rcases p with ⟨l, v, f⟩
  simp only at hl hv
  subst hl; subst hv
  simp [Port.release, Levels.idle]

/-- A byte emitted: the frame in progress grows by it, SCLK and CS_n end low, SDO holds bit 0. -/
theorem emit_eq (p : Port) (b : Byte) : p.emit b = ⟨⟨false, b.getLsbD 0, false⟩, p.live ++ [b], p.frames⟩ := rfl

/-! ### The checks before a body -/

/-- What `checked` answers, in every case. -/
theorem checked_eq (needsInit : Bool) (s : State) (body : State → State) :
    checked needsInit s body =
      .next (if s.status.halt then raise .halted false none s
        else if needsInit && !s.status.init then raise .notInit false (opInfo s) s else body s) := by
  unfold checked
  split <;> [rfl; (split <;> rfl)]

theorem checked_halted (needsInit : Bool) (s : State) (body : State → State) (h : s.status.halt = true) :
    checked needsInit s body = .next (raise .halted false none s) := by simp [checked, h]

theorem checked_notInit (s : State) (body : State → State) (hh : s.status.halt = false) (hi : s.status.init = false) :
    checked true s body = .next (raise .notInit false (opInfo s) s) := by simp [checked, hh, hi]

theorem checked_runs (s : State) (body : State → State) (hh : s.status.halt = false) (hi : s.status.init = true) :
    checked true s body = .next (body s) := by simp [checked, hh, hi]

theorem checked_free_runs (s : State) (body : State → State) (hh : s.status.halt = false) :
    checked false s body = .next (body s) := by simp [checked, hh]

/-! ### The failure entry -/

/-- A failure that is not fatal changes STATUS, the phase and the fault log, nothing else. -/
theorem raise_nonfatal (c : Cause) (info : Option Int) (s : State) :
    raise c false info s = { s with
      status := s.status.fail (opField s.cmdL) c, phase := .idle, faultLog := s.faultLog ++ [⟨opField s.cmdL, c, info⟩] } := rfl

/-- A fatal failure also sets HALT, clears OPEN and releases the selected port. -/
theorem raise_fatal (c : Cause) (info : Option Int) (s : State) :
    raise c true info s = { s with
      status := s.status.halted.fail (opField s.cmdL) c, phase := .idle, ports := (s.releasePort []).ports,
      faultLog := s.faultLog ++ [⟨opField s.cmdL, c, info⟩] } := rfl

/-! ### Lifecycle -/

/-- The transport's release: the selected port is idle and OPEN is 0 where it was 1; nothing otherwise. -/
theorem releaseTransport_eq (s : State) :
    releaseTransport s =
      if s.status.opened then { s with ports := (s.releasePort []).ports, status := { s.status with opened := false } } else s := rfl

/-- The status after the transport's release: OPEN is 0, nothing else differs. -/
theorem releaseTransport_status (s : State) : (releaseTransport s).status = { s.status with opened := false } := by
  unfold releaseTransport
  split
  · rfl
  · rename_i h
    rcases s with ⟨_, ⟨_, o, _, _, _, _, _, _⟩, _⟩
    simp only [Bool.not_eq_true] at h
    simp_all

/-! ### The copy step -/

/-- The release changes nothing that the checks of INIT or the end of a command read, but STATUS. -/
theorem releaseTransport_fields (s : State) :
    (releaseTransport s).portFault = s.portFault ∧ (releaseTransport s).cmdL = s.cmdL ∧ (releaseTransport s).draws = s.draws ∧
      (releaseTransport s).fb = s.fb ∧ (releaseTransport s).mb = s.mb ∧ (releaseTransport s).faultLog = s.faultLog := by
  unfold releaseTransport
  split <;> exact ⟨rfl, rfl, rfl, rfl, rfl, rfl⟩

/-- When the transport does not open (R138). -/
theorem openFails_iff (port : Nat) (clk : Word) (s : State) :
    openFails port clk s = true ↔ Config.numPorts ≤ port ∨ clk = 0 ∨ s.faultAt port = true := by
  simp only [openFails, Bool.or_eq_true, decide_eq_true_eq]
  tauto

/-- A byte of FB after a copy. -/
theorem copyByte_fb (dir : Direction) (j : Nat) (s : State) :
    (copyByte dir j s).fb = if dir = .down then Memory.write s.fb j (s.mbByte j) else s.fb := by cases dir <;> rfl

/-- A byte of MB after a copy. -/
theorem copyByte_mb (dir : Direction) (j : Nat) (s : State) :
    (copyByte dir j s).mb = if dir = .up then Memory.write s.mb j (s.fbByte j) else s.mb := by cases dir <;> rfl

/-- The offset a copy step picks is one of those left. -/
theorem syncPick_mem (rest : List Nat) (draw : Nat) (h : rest ≠ []) : syncPick rest draw ∈ rest := by
  have hl : 0 < rest.length := List.length_pos_iff.mpr h
  have hlt := Nat.mod_lt (Config.syncChoice draw) hl
  unfold syncPick
  rw [List.getD_eq_getElem?_getD, List.getElem?_eq_getElem hlt, Option.getD_some]
  exact List.getElem_mem hlt

/-! ### The environment -/

/-- The step of each input but the sequencer's turn answers a next state. -/
theorem inputStep_next (i : Input) (s : State) (h : i ≠ .turn) : ∃ t, inputStep i s = .next t := by
  cases i <;> first | exact ⟨_, rfl⟩ | exact absurd rfl h

end Sys2Proof.Laws
end

