-- ==== Sys2Proof/Laws/Step.lean ====
section
/-! SUPPORT. What one step can do, said once: the body of each command, the sequencer's cases, and the step's cases. -/

namespace Sys2Proof.Laws

open Sys2Proof.Machine

/-- Whether a command needs INIT = 1 (41_lifecycle.md R133). -/
def needsInit : Instr → Bool
  | .nop | .init _ _ _ _ | .encPrefix _ | .encEndlen _ => false
  | _ => true

/-- What a command's first step does once the checks of R133 have passed. -/
def bodyOf (i : Instr) (s : State) : State :=
  match i with
  | .nop => complete none s
  | .init nleds ibri port clk => initBody nleds ibri port clk s
  | .close => complete none (releaseTransport s)
  | .setPixel idx red green blue => complete none (if s.indexInRange idx then writeColour idx.toNat red green blue s else s)
  | .getPixel idx => if s.indexInRange idx then complete (some (readColour idx.toNat s)) s else raise .index false (some idx) s
  | .setBrightness idx bri =>
    if bri > Config.briMax then raise .range false (some bri) s
    else complete none (if s.indexInRange idx then s.writeFb (channelOffset idx.toNat chPrefix) (prefixByte bri) else s)
  | .showFrame =>
    if s.status.opened then (s.modifyPort s.portcfg Port.select).enter (.showing 0)
    else raise .transport true (portInfo s) s
  | .syncUp => startSync .up s
  | .syncDown => startSync .down s
  | .rotate pos =>
    if s.n = 0 then raise .divzero false none s else complete none { s with fb := rotatedFb s.fb s.n (rotateCutoff pos s.n) }
  | .clear => complete none { s with fb := clearedFb s.fb s.n }
  | .encPrefix bri =>
    if bri > Config.briMax then raise .range false (some bri) s else complete (some ((prefixByte bri).setWidth 32)) s
  | .encEndlen nl => complete (some (BitVec.ofNat 32 (endLength nl))) s

/-- Every command's meaning is its checks around its body. -/
theorem exec_eq_checked (i : Instr) (s : State) : exec i s = checked (needsInit i) s (bodyOf i) := by cases i <;> rfl

/-- Every command's meaning answers one of three next states. -/
theorem exec_cases {i : Instr} {s t : State} (h : exec i s = .next t) :
    (s.status.halt = true ∧ t = raise .halted false none s) ∨
    (s.status.halt = false ∧ needsInit i = true ∧ s.status.init = false ∧ t = raise .notInit false (opInfo s) s) ∨
    (s.status.halt = false ∧ (needsInit i = true → s.status.init = true) ∧ t = bodyOf i s) := by
  rw [exec_eq_checked, checked_eq] at h
  injection h with h
  by_cases hh : s.status.halt = true
  · exact .inl ⟨hh, by simpa [hh] using h.symm⟩
  · have hh' : s.status.halt = false := by simpa using hh
    by_cases hn : needsInit i = true ∧ s.status.init = false
    · exact .inr (.inl ⟨hh', hn.1, hn.2, by simpa [hh', hn.1, hn.2] using h.symm⟩)
    · have hn' : needsInit i = true → s.status.init = true := fun e => by
        by_contra hc; exact hn ⟨e, by simpa using hc⟩
      refine .inr (.inr ⟨hh', hn', ?_⟩)
      cases he : needsInit i
      · simpa [hh', he] using h.symm
      · simpa [hh', he, hn' he] using h.symm

/-- The cases of the sequencer's step. -/
theorem sequencerStep_cases {s t : State} (h : sequencerStep s = .next t) :
    (s.phase = .idle ∧ t = s) ∨
    (s.phase = .accepted ∧ ∃ i, decode s.cmdL s.argL = .ok i ∧ exec i s = .next t) ∨
    (s.phase = .accepted ∧ (∃ e, decode s.cmdL s.argL = .error e) ∧ t = refuseIllegal s) ∨
    (∃ k, s.phase = .showing k ∧ k < frameLength s.n ∧ s.faultAt s.portcfg.toNat = true ∧ t = transportFail k s) ∨
    (∃ k, s.phase = .showing k ∧ k + 1 = frameLength s.n ∧ s.faultAt s.portcfg.toNat = false ∧
      t = complete none ((sendByte k s).releasePort [])) ∨
    (∃ k, s.phase = .showing k ∧ k + 1 < frameLength s.n ∧ s.faultAt s.portcfg.toNat = false ∧
      t = (sendByte k s).enter (.showing (k + 1))) ∨
    (∃ dir rest, s.phase = .syncing dir rest ∧ rest ≠ [] ∧ t = copyStep dir rest (syncPick rest s.draws) s.drawn) := by
  unfold sequencerStep at h
  split at h
  · rename_i hp; injection h with h; exact .inl ⟨hp, h.symm⟩
  · rename_i hp
    unfold acceptedStep at h
    split at h
    · rename_i i hd; exact .inr (.inl ⟨hp, i, hd, h⟩)
    · rename_i e hd; injection h with h; exact .inr (.inr (.inl ⟨hp, ⟨e, hd⟩, h.symm⟩))
  · rename_i k hp
    unfold serializerStep at h
    by_cases hk : k < frameLength s.n
    · rw [if_pos hk] at h
      by_cases hf : s.faultAt s.portcfg.toNat = true
      · rw [if_pos hf] at h; injection h with h
        exact .inr (.inr (.inr (.inl ⟨k, hp, hk, hf, h.symm⟩)))
      · rw [if_neg hf] at h
        have hf' : s.faultAt s.portcfg.toNat = false := by simpa using hf
        by_cases hl : k + 1 = frameLength s.n
        · rw [if_pos hl] at h; injection h with h
          exact .inr (.inr (.inr (.inr (.inl ⟨k, hp, hl, hf', h.symm⟩))))
        · rw [if_neg hl] at h; injection h with h
          exact .inr (.inr (.inr (.inr (.inr (.inl ⟨k, hp, by omega, hf', h.symm⟩)))))
    · rw [if_neg hk] at h; cases h
  · rename_i dir rest hp
    unfold syncStep at h
    by_cases hr : rest = []
    · rw [if_pos hr] at h; cases h
    · rw [if_neg hr] at h; injection h with h
      exact .inr (.inr (.inr (.inr (.inr (.inr ⟨dir, rest, hp, hr, h.symm⟩)))))

/-- The cases of a step: the sequencer moves, from `s` itself or with its explicit turn taken, or an agent outside moves. -/
theorem step_cases {s t : State} (h : step s = .next t) :
    (∃ rest, (s.inputs = rest ∨ s.inputs = .turn :: rest) ∧ sequencerStep { s with inputs := rest } = .next t) ∨
    (∃ i rest, i ≠ .turn ∧ s.inputs = i :: rest ∧ inputStep i { s with inputs := rest } = .next t) := by
  unfold step at h
  split at h
  · rename_i hi
    exact .inl ⟨[], .inl hi, by rw [← hi]; exact h⟩
  · rename_i i rest hi
    by_cases ht : i = .turn
    · subst ht; exact .inl ⟨rest, .inr hi, h⟩
    · exact .inr ⟨i, rest, ht, hi, h⟩

/-- The cases of an input that is not the sequencer's turn. -/
theorem inputStep_cases {i : Input} {s t : State} (hi : i ≠ .turn) (h : inputStep i s = .next t) :
    (∃ off n, i = .hostRead off n ∧ t = hostRead off n s) ∨
    (∃ off n v, i = .hostWrite off n v ∧ t = hostWrite off n v s) ∨
    (∃ a, i = .mirrorRead a ∧ t = mirrorRead a s) ∨
    (∃ a d, i = .mirrorWrite a d ∧ t = mirrorWrite a d s) ∨
    (∃ p l, i = .portFault p l ∧ t = drivePortFault p l s) := by
  cases i with
  | hostRead off n => injection h with h; exact .inl ⟨off, n, rfl, h.symm⟩
  | hostWrite off n v => injection h with h; exact .inr (.inl ⟨off, n, v, rfl, h.symm⟩)
  | mirrorRead a => injection h with h; exact .inr (.inr (.inl ⟨a, rfl, h.symm⟩))
  | mirrorWrite a d => injection h with h; exact .inr (.inr (.inr (.inl ⟨a, d, rfl, h.symm⟩)))
  | portFault p l => injection h with h; exact .inr (.inr (.inr (.inr ⟨p, l, rfl, h.symm⟩)))
  | turn => exact absurd rfl hi

/-- A host write changes ARG, STATUS's sticky bits, the latches with the phase, or nothing of the block. -/
theorem hostWrite_cases (off n : Nat) (v : Word) (s : State) :
    hostWrite off n v s = refuseHost s ∨
    (s.busy = true ∧ hostWrite off n v s = State.answerHost { s with status := s.status.overrun } .written) ∨
    (s.busy = false ∧ hostWrite off n v s = (accept v s).answerHost .written) ∨
    hostWrite off n v s = State.answerHost { s with arg := v } .written ∨
    hostWrite off n v s = State.answerHost { s with status := s.status.clearW1C v } .written ∨
    hostWrite off n v s = s.answerHost .written := by
  unfold hostWrite
  split
  · rename_i r _
    cases r
    · by_cases hb : s.busy = true
      · exact .inr (.inl ⟨hb, by simp [writeReg, writeCmd, hb]⟩)
      · exact .inr (.inr (.inl ⟨by simpa using hb, by simp [writeReg, writeCmd, hb]⟩))
    · exact .inr (.inr (.inr (.inl rfl)))
    · exact .inr (.inr (.inr (.inr (.inl rfl))))
    all_goals exact .inr (.inr (.inr (.inr (.inr rfl))))
  · exact .inl rfl

/-- A host read changes the bus's answer, and the mark where it is refused. -/
theorem hostRead_cases (off n : Nat) (s : State) :
    hostRead off n s = refuseHost s ∨ ∃ r, hostRead off n s = s.answerHost (.data (readReg s r)) := by
  unfold hostRead
  split
  · exact .inr ⟨_, rfl⟩
  · exact .inl rfl

/-- A mirror read changes the mirror port's answer, and the mark where it is refused. -/
theorem mirrorRead_cases (a : MirrorAddr) (s : State) :
    mirrorRead a s = refuseMirror s ∨ mirrorRead a s = s.answerMirror (.data (s.mbByte a.toNat)) := by
  unfold mirrorRead
  split
  · exact .inr rfl
  · exact .inl rfl

/-- A mirror write is refused, or writes one byte of MB below 4N with INIT = 1. -/
theorem mirrorWrite_cases (a : MirrorAddr) (d : Byte) (s : State) :
    mirrorWrite a d s = refuseMirror s ∨
    (s.status.init = true ∧ a.toNat < bufferLength s.n ∧
      mirrorWrite a d s = (s.writeMb a.toNat d).answerMirror .written) := by
  unfold mirrorWrite
  split
  · rename_i h
    simp only [mirrorAdmits, Bool.and_eq_true, decide_eq_true_eq] at h
    exact .inr ⟨h.1, h.2, rfl⟩
  · exact .inl rfl

end Sys2Proof.Laws
end

