-- ==== Sys2Proof/Laws/Host.lean ====
section
/-! SUPPORT. The host's moves: they are steps of the model, a quiescent state stays as the end of a run observes it, and a program that keeps
its duties never writes CMD while BUSY = 1 (70_reset_and_hazards.md R279, R290, R293). -/

namespace Sys2Proof.Laws

open Sys2Proof.Machine Sys2Proof.Safety

/-! ### The assembler -/

theorem unsignedOperand_le {width : Nat} {v : Int} {n : Nat} (h : unsignedOperand width v = some n) : n < 2 ^ width := by
  unfold unsignedOperand at h
  split at h
  · rename_i hv
    cases h
    have : ((2 ^ width : Nat) : Int) = 2 ^ width := by norm_cast
    omega
  · cases h

theorem signedOperand_fits {v i : Int} (h : signedOperand v = some i) : indexFits i = true := by
  unfold signedOperand at h
  split at h
  · rename_i hv
    cases h
    exact hv
  · cases h

/-- What the assembler reads from a line has its operands in the ranges of R107, so it also assembles. -/
theorem parseCommand_wellFormed {mnemonic : String} {operands : List Int} {i : Instr} (h : parseCommand mnemonic operands = some i) :
    i.wellFormed = true := by
  unfold parseCommand at h
  split at h <;> simp only [pure, bind, Option.bind_eq_some_iff, Option.some.injEq, reduceCtorEq] at h
  all_goals first
    | (subst h; rfl)
    | skip
  · obtain ⟨a, ha, b, hb, c, hc, _, _, rfl⟩ := h
    have := unsignedOperand_le ha; have := unsignedOperand_le hb; have := unsignedOperand_le hc
    simp only [Instr.wellFormed, countFits, brightnessFits, portFits, Bool.and_eq_true, decide_eq_true_eq]
    omega
  · obtain ⟨a, ha, _, _, _, _, _, _, rfl⟩ := h
    exact signedOperand_fits ha
  · obtain ⟨a, ha, rfl⟩ := h
    exact signedOperand_fits ha
  · obtain ⟨a, ha, b, hb, rfl⟩ := h
    have := unsignedOperand_le hb
    simp only [Instr.wellFormed, signedOperand_fits ha, brightnessFits, Bool.true_and, decide_eq_true_eq]
    omega
  · obtain ⟨a, ha, rfl⟩ := h
    exact signedOperand_fits ha
  · obtain ⟨a, ha, rfl⟩ := h
    have := unsignedOperand_le ha
    simp only [Instr.wellFormed, brightnessFits, decide_eq_true_eq]
    omega
  · obtain ⟨a, ha, rfl⟩ := h
    have := unsignedOperand_le ha
    simp only [Instr.wellFormed, countFits, decide_eq_true_eq]
    omega

/-- A line that spells a command assembles to its actions. -/
theorem assembleLine_eq {mnemonic : String} {operands : List Int} {i : Instr} (h : parseCommand mnemonic operands = some i) :
    assembleLine mnemonic operands = some (commandActions i) := by
  simp [assembleLine, h, assemble, parseCommand_wellFormed h]

/-- Lines assemble exactly when every one does. -/
theorem expandLines_isSome (lines : List HostLine) : (expandLines lines).isSome = lines.all fun l => l.expand.isSome := by
  induction lines with
  | nil => rfl
  | cons l rest ih =>
    unfold expandLines at ih ⊢
    cases h : l.expand <;> simp [joinActions, h, ih]

/-! ### A move of the host is a step -/

theorem perform_eq (a : HostAction) (s : State) : inputStep a.request s = .next (a.perform s) := by cases a <;> rfl

/-- A move of the host is the step of the model with that access pending first. -/
theorem step_request (a : HostAction) (s : State) : step { s with inputs := a.request :: s.inputs } = .next (a.perform s) :=
  perform_eq a s

/-- What a host program can do when it moves. -/
theorem move_cases (h : HostProgram) (s : State) :
    (h.settle.todo = [] ∧ h.move s = (h.settle, s)) ∨
    ∃ a rest, h.settle.todo = a :: rest ∧ h.move s = (h.settle.proceed a rest (a.perform s).hostAnswer, a.perform s) := by
  unfold HostProgram.move
  split
  · rename_i e; exact .inl ⟨e, rfl⟩
  · rename_i a rest e; exact .inr ⟨a, rest, e, rfl⟩

/-- An ended program makes no further access (R290, R293). -/
theorem ended_move (h : HostProgram) (s : State) (he : h.ended = true) : (h.move s).2 = s := by
  rcases move_cases h s with ⟨_, e⟩ | ⟨a, rest, ht, _⟩
  · rw [e]
  · simp [HostProgram.ended, ht] at he

/-- The cleanup runs to its last command: in it, a move makes the next access and drops it, but for a WAIT that goes on (R292). -/
theorem move_cleanup {h : HostProgram} {a : HostAction} {rest : List HostAction} (s : State) (hs : h.stage = .cleanup)
    (ht : h.todo = a :: rest) : (h.move s).1.stage = .cleanup ∧ (h.move s).2 = a.perform s ∧
      ((h.move s).1.todo = rest ∨ (a = .pollStatus ∧ (h.move s).1.todo = a :: rest)) := by
  have hset : h.settle = h := by simp [HostProgram.settle, HostProgram.advance, ht]
  rcases move_cases h s with ⟨e, _⟩ | ⟨a', rest', e, hm⟩
  · rw [hset, ht] at e; cases e
  · rw [hset, ht] at e
    cases e
    rw [hm, hset]
    unfold HostProgram.proceed
    split
    · split
      · exact ⟨hs, rfl, .inr ⟨rfl, ht⟩⟩
      · exact ⟨hs, rfl, .inl rfl⟩
    · split
      · simp [HostProgram.fail, hs]
      · exact ⟨hs, rfl, .inl rfl⟩
    · exact ⟨hs, rfl, .inl rfl⟩

/-- A read of STATUS answers the STATUS word and changes nothing else (R108, 20_memory.md R67). -/
theorem readStatus_eq (s : State) : hostRead 0x08 4 s = s.answerHost (.data s.statusWord) := rfl

/-- Bit 0 of the STATUS word is BUSY (10_state.md R24). -/
theorem keepsPolling_statusWord (s : State) : keepsPolling s.statusWord = s.busy := by
  simp only [keepsPolling, State.statusWord, Status.word]
  rw [BitVec.getLsbD_append]
  simp

/-! ### The end of a run -/

/-- With no command the sequencer changes nothing (R273). -/
theorem sequencerStep_idle {s : State} (h : s.phase = .idle) : sequencerStep s = .next s := by
  unfold sequencerStep
  rw [h]

/-- From a quiescent state the platform and the sequencer change nothing that the end of a run observes (R293). -/
theorem quiescent_step {s t : State} (hq : quiescent s = true) (h : step s = .next t) :
    quiescent t = true ∧ observe t = observe s ∧ t.faultLog = s.faultLog ∧ t.refusalMark = s.refusalMark := by
  have hp : s.phase = .idle := by
    have hq' := hq
    simp only [quiescent, State.busy, Bool.and_eq_true] at hq'
    simpa using hq'.2
  unfold step at h
  split at h
  · rename_i hi
    rw [sequencerStep_idle hp] at h
    cases h
    exact ⟨hq, rfl, rfl, rfl⟩
  · rename_i i rest hi
    have hall : (rest.all fun i => !hostAccess i && !mirrorAccess i) = true := by
      simp only [quiescent, hi, List.all_cons, Bool.and_eq_true] at hq
      exact hq.1.2
    have hrest : ∀ u : State, u.inputs = rest → u.phase = .idle → quiescent u = true := fun u e e' => by
      simp [quiescent, e, State.busy, e', hall]
    cases i with
    | portFault p level => cases h; exact ⟨hrest _ rfl hp, rfl, rfl, rfl⟩
    | turn =>
      have h : sequencerStep { s with inputs := rest } = .next t := h
      rw [sequencerStep_idle (s := { s with inputs := rest }) hp] at h
      cases h
      exact ⟨hrest _ rfl hp, rfl, rfl, rfl⟩
    | hostRead | hostWrite | mirrorRead | mirrorWrite => all_goals simp [quiescent, hi, hostAccess, mirrorAccess] at hq

/-! ### A program that keeps its duties never overruns -/

/-- What the duties ask when the stage of the program ends with `o` owed. -/
def nextDuties (h : HostProgram) : Owed → Bool :=
  match h.stage with
  | .body => exitDuties h
  | .shutdown => cleanupDuties h
  | .cleanup => Owed.settled

/-- The program is where it may be: what is left keeps the duties, and a WAIT is owed whenever the block is busy. -/
structure OnDuty (h : HostProgram) (s : State) : Prop where
  /-- The actions to come keep the duties, with a WAIT owed while BUSY = 1. -/
  kept : ∃ o, keepsDuties (nextDuties h) o h.todo = true ∧ (s.busy = true → o.wait = true)
  /-- So does the exit path of a program cancelled in its body. -/
  cancelled : exitDuties h Owed.nothing = true
  /-- No other host access is pending. -/
  oneMaster : ∀ i ∈ s.inputs, hostAccess i = false

theorem hostAction_cases (a : HostAction) :
    (∃ off n, a = .read off n) ∨ (∃ off n v, a = .write off n v) ∨ a = .pollStatus ∨ a = .checkStatus := by
  cases a <;> simp

/-- At the launch of a program with its duties kept. -/
theorem launch_onDuty {h : HostProgram} {s : State} (hl : LaunchPremises h s) : OnDuty h s := by
  refine ⟨⟨Owed.nothing, by simpa [nextDuties, hl.duties.fresh.1] using hl.duties.kept, fun hb => ?_⟩, hl.duties.cancelled, hl.oneMaster⟩
  rw [hl.clean] at hb
  simp [State.busy, State.reset] at hb

/-- A program may go on to its next stage where what is owed allows it. -/
theorem onDuty_leave {h : HostProgram} {s : State} {o : Owed} (ho : nextDuties h o = true) (hw : s.busy = true → o.wait = true)
    (hc : exitDuties h Owed.nothing = true) (hone : ∀ i ∈ s.inputs, hostAccess i = false) : OnDuty h.leave s := by
  obtain ⟨todo, shutdown, cleanup, stage, failed⟩ := h
  cases stage <;> exact ⟨⟨o, ho, hw⟩, hc, hone⟩

theorem onDuty_advance {h : HostProgram} {s : State} (hd : OnDuty h s) : OnDuty h.advance s := by
  unfold HostProgram.advance
  split
  · rename_i ht
    obtain ⟨o, ho, hw⟩ := hd.kept
    rw [ht] at ho
    exact onDuty_leave ho hw hd.cancelled hd.oneMaster
  · exact hd

theorem onDuty_settle {h : HostProgram} {s : State} (hd : OnDuty h s) : OnDuty h.settle s := onDuty_advance (onDuty_advance hd)

/-- A failed CHECK leaves the program on duty where both ways on keep the duties. -/
theorem onDuty_fail {h : HostProgram} {s : State} {o : Owed} (hd : OnDuty h s) (ho : nextDuties h o = true)
    (hw : s.busy = true → o.wait = true) : OnDuty h.fail s := by
  unfold HostProgram.fail
  split
  · exact onDuty_leave (h := { h with failed := true }) ho hw hd.cancelled hd.oneMaster
  · exact onDuty_leave (h := { h with failed := true }) ho hw hd.cancelled hd.oneMaster
  · exact ⟨hd.kept, hd.cancelled, hd.oneMaster⟩

/-- A cancelled program stays on duty: it waits for BUSY = 0 first (60_exceptions.md R257). -/
theorem onDuty_cancel {h : HostProgram} {s : State} (hd : OnDuty h s) : OnDuty h.cancel s := by
  have hs := onDuty_settle hd
  unfold HostProgram.cancel
  split
  · refine ⟨⟨{ Owed.nothing with wait := true }, ?_, fun _ => rfl⟩, hs.cancelled, hs.oneMaster⟩
    simp only [keepsDuties, Owed.allows, Bool.and_eq_true]
    exact ⟨⟨trivial, rfl⟩, hs.cancelled⟩
  · exact hs
  · exact hs

/-- A host write that keeps the duties is admitted, and meets BUSY = 0 if it is to CMD. -/
theorem allows_write {o : Owed} {off n : Nat} {v : Word} {s : State} (ha : o.allows (.write off n v) = true)
    (hw : s.busy = true → o.wait = true) : n = 4 ∧ (off = 0x00 → s.busy = false) := by
  simp only [Owed.allows, Bool.and_eq_true, Bool.or_eq_true, bne_iff_ne, Bool.not_eq_true'] at ha
  refine ⟨?_, fun h0 => ?_⟩
  · by_contra hn
    simp [admitted, hn] at ha
  · rcases ha.2 with h | h
    · exact absurd h0 h
    · exact Bool.eq_false_iff.mpr fun e => by simp [hw e] at h

/-- A host write changes BUSY only at offset 0. -/
theorem hostWrite_busy {off n : Nat} (v : Word) (s : State) (h0 : off ≠ 0x00) : (hostWrite off n v s).busy = s.busy := by
  unfold hostWrite
  split
  · rename_i r hr
    cases r <;> first | rfl | skip
    exfalso
    unfold admitted regAt at hr
    split at hr
    · split at hr <;> simp_all
    · cases hr
  · rfl

theorem perform_inputs (a : HostAction) (s : State) : (a.perform s).inputs = s.inputs := by
  rcases hostAction_cases a with ⟨off, n, rfl⟩ | ⟨off, n, v, rfl⟩ | rfl | rfl
  · rcases hostRead_cases off n s with e | ⟨r, e⟩ <;> simp only [HostAction.perform, e] <;> rfl
  · rcases hostWrite_cases off n v s with e | ⟨_, e⟩ | ⟨_, e⟩ | e | e | e <;> simp only [HostAction.perform, e] <;> rfl
  · rfl
  · rfl

/-- A move of the host keeps the program on duty. -/
theorem onDuty_move {h : HostProgram} {s : State} (hd : OnDuty h s) : OnDuty (h.move s).1 (h.move s).2 := by
  have hs := onDuty_settle hd
  rcases move_cases h s with ⟨_, e⟩ | ⟨a, rest, ht, e⟩ <;> rw [e]
  · exact hs
  · generalize h.settle = g at hs ht
    obtain ⟨o, ho, hw⟩ := hs.kept
    rw [ht] at ho
    simp only [keepsDuties, Bool.and_eq_true] at ho
    have hone : ∀ i ∈ (a.perform s).inputs, hostAccess i = false := by rw [perform_inputs]; exact hs.oneMaster
    have goOn : ((a.perform s).busy = true → (o.after a).wait = true) → OnDuty { g with todo := rest } (a.perform s) :=
      fun hb => ⟨⟨o.after a, ho.2, hb⟩, hs.cancelled, hone⟩
    rcases hostAction_cases a with ⟨off, n, rfl⟩ | ⟨off, n, v, rfl⟩ | rfl | rfl
    · refine goOn fun hb => hw ?_
      rcases hostRead_cases off n s with e | ⟨r, e⟩ <;> simp only [HostAction.perform, e] at hb <;> exact hb
    · refine goOn fun hb => ?_
      by_cases h0 : off = 0x00
      · simp [Owed.after, h0]
      · have hb' : s.busy = true := by rwa [HostAction.perform, hostWrite_busy v s h0] at hb
        simp only [Owed.after, h0, if_false]
        split <;> exact hw hb'
    · simp only [HostAction.perform, readStatus_eq, HostProgram.proceed, State.answerHost, keepsPolling_statusWord]
      split
      · exact ⟨⟨o, by rw [ht]; simpa [keepsDuties, Owed.allows] using ho.2, hw⟩, hs.cancelled, hs.oneMaster⟩
      · rename_i hb
        exact ⟨⟨o.after .pollStatus, ho.2, fun e => absurd e hb⟩, hs.cancelled, hs.oneMaster⟩
    · have hw' : s.busy = true → (o.after .checkStatus).wait = true := fun e => by simp [Owed.after, hw e]
      have hd' := goOn hw'
      simp only [HostAction.perform, readStatus_eq, HostProgram.proceed, State.answerHost]
      split
      · exact onDuty_fail hd' (by have := ho.1.2; simp only [bne_self_eq_false, Bool.false_or] at this; exact this) hw'
      · exact hd'

/-- No command takes an input off the pending ones. -/
theorem bodyOf_inputs (i : Instr) (s : State) : (bodyOf i s).inputs = s.inputs := by
  have hrel : (releaseTransport s).inputs = s.inputs := by unfold releaseTransport; split <;> rfl
  cases i with
  | init nleds ibri port clk =>
    simp only [bodyOf, initBody]
    split
    · exact hrel
    split
    · exact hrel
    split <;> exact hrel
  | close => exact hrel
  | nop | clear | encEndlen => all_goals rfl
  | setPixel => simp only [bodyOf]; split <;> rfl
  | getPixel | showFrame | rotate | encPrefix => all_goals simp only [bodyOf]; split <;> rfl
  | setBrightness =>
    simp only [bodyOf]
    split
    · rfl
    · split <;> rfl
  | syncUp | syncDown => all_goals simp only [bodyOf, startSync]; split <;> rfl

/-- Nor does the sequencer, and it starts nothing by itself: an idle block stays idle (R273). -/
theorem sequencerStep_keeps {s t : State} (h : sequencerStep s = .next t) : t.inputs = s.inputs ∧ (t.busy = true → s.busy = true) := by
  by_cases hp : s.phase = .idle
  · rw [sequencerStep_idle hp] at h
    cases h
    exact ⟨rfl, id⟩
  · refine ⟨?_, fun _ => by simpa [State.busy] using hp⟩
    rcases sequencerStep_cases h with ⟨_, rfl⟩ | ⟨_, i, _, he⟩ | ⟨_, _, rfl⟩ | ⟨k, _, _, _, rfl⟩ | ⟨k, _, _, _, rfl⟩ | ⟨k, _, _, _, rfl⟩ |
      ⟨dir, rest, _, _, rfl⟩
    · rfl
    · rcases exec_cases he with ⟨_, rfl⟩ | ⟨_, _, _, rfl⟩ | ⟨_, _, rfl⟩
      · rfl
      · rfl
      · exact bodyOf_inputs i s
    · unfold refuseIllegal; split <;> rfl
    · rfl
    · rfl
    · rfl
    · unfold copyStep
      cases dir <;> dsimp only <;> split <;> rfl

/-- A step of the block or of its other agents keeps the program on duty. -/
theorem onDuty_step {h : HostProgram} {s t : State} (hd : OnDuty h s) (hs : step s = .next t) : OnDuty h t := by
  have key : (∀ i ∈ t.inputs, i ∈ s.inputs) ∧ (t.busy = true → s.busy = true) := by
    rcases step_cases hs with ⟨rest, hin, hq⟩ | ⟨i, rest, hi, hin, hq⟩
    · obtain ⟨e, hb⟩ := sequencerStep_keeps hq
      refine ⟨fun i hmem => ?_, hb⟩
      rw [e] at hmem
      rcases hin with hin | hin <;> rw [hin]
      · exact hmem
      · exact List.mem_cons_of_mem _ hmem
    · have hhost : hostAccess i = false := hd.oneMaster i (by rw [hin]; exact List.mem_cons_self)
      have hsub : ∀ u : State, u.inputs = rest → ∀ j ∈ u.inputs, j ∈ s.inputs := fun u e j hj => by
        rw [hin]
        rw [e] at hj
        exact List.mem_cons_of_mem _ hj
      rcases inputStep_cases hi hq with ⟨off, n, rfl, _⟩ | ⟨off, n, v, rfl, _⟩ | ⟨a, _, rfl⟩ | ⟨a, d, _, rfl⟩ | ⟨p, l, _, rfl⟩
      · cases hhost
      · cases hhost
      · rcases mirrorRead_cases a { s with inputs := rest } with e | e <;> rw [e] <;> exact ⟨hsub _ rfl, id⟩
      · rcases mirrorWrite_cases a d { s with inputs := rest } with e | ⟨_, _, e⟩ <;> rw [e] <;> exact ⟨hsub _ rfl, id⟩
      · exact ⟨hsub _ rfl, id⟩
  obtain ⟨o, ho, hw⟩ := hd.kept
  exact ⟨⟨o, ho, fun e => hw (key.2 e)⟩, hd.cancelled, fun i hi => hd.oneMaster i (key.1 i hi)⟩

/-- Under every schedule, cancellations included, a program that keeps its duties stays on duty from its launch. -/
theorem play_onDuty (schedule : List Turn) {h g : HostProgram} {s t : State} (hd : OnDuty h s)
    (hp : play schedule h s = .next (g, t)) : OnDuty g t := by
  induction schedule generalizing h s with
  | nil => cases hp; exact hd
  | cons b schedule ih =>
    cases b with
    | host => exact ih (onDuty_move hd) hp
    | cancel => exact ih (onDuty_cancel hd) hp
    | block =>
      simp only [play] at hp
      split at hp
      · rename_i u hu
        exact ih (onDuty_step hd hu) hp
      · cases hp
      · cases hp

/-- The duties of R290 rule out the overrun hazard of R279: at every point of a run of a program that keeps them, a CMD write about to be
made meets BUSY = 0. -/
theorem hostDuties_no_overrun (schedule : List Turn) {h g : HostProgram} {s t : State} (hl : LaunchPremises h s)
    (hp : play schedule h s = .next (g, t)) (n : Nat) (v : Word) (rest : List HostAction)
    (hnext : g.settle.todo = .write 0x00 n v :: rest) : t.busy = false := by
  obtain ⟨o, ho, hw⟩ := (onDuty_settle (play_onDuty schedule (launch_onDuty hl) hp)).kept
  rw [hnext] at ho
  simp only [keepsDuties, Bool.and_eq_true] at ho
  exact (allows_write ho.1.1 hw).2 rfl

end Sys2Proof.Laws
end

