-- ==== Sys2Proof/Laws/PerInstr.lean ====
section
/-! SUPPORT. The family TableRow: every command's word spells a row of the opcode map of its own format (30_encoding.md R99, R100). -/

namespace Sys2Proof.Laws.TableRow

/-- The command word of `i` matches a row of the opcode map that has the format of `i`: its opcode is that row's and its RES bits are 0. -/
def Statement (i : Instr) : Prop := ∃ r ∈ opcodeMap, r.format = i.format ∧ r.matchesWord i.commandWord = true

/-- A row of the map at hand settles the statement once its match is shown. -/
theorem of_row {i : Instr} (r : OpRow) (hr : r ∈ opcodeMap) (hf : r.format = i.format)
    (hm : i.commandWord &&& r.mask = r.matchWord) : Statement i := ⟨r, hr, hf, by simp [OpRow.matchesWord, hm]⟩

theorem fx_match (op : BitVec 4) (x : BitVec 16) :
    ((op ++ 0#12 ++ x : BitVec 32) &&& (0xF0000000 ||| 0x0FFF0000 : BitVec 32)) = op ++ (0 : BitVec 28) := by
  apply BitVec.eq_of_getLsbD_eq
  intro i hi
  rw [BitVec.getLsbD_and]
  simp only [BitVec.getLsbD_append]
  interval_cases i <;> simp

theorem nop : Statement .nop := of_row ⟨"NOP", 0x0, .fn⟩ (by decide) rfl (by decide)

theorem init (nleds ibri port : Nat) (clk : Word) : Statement (.init nleds ibri port clk) := by
  refine of_row ⟨"INIT", 0x1, .fi⟩ (by decide) rfl ?_
  apply BitVec.eq_of_getLsbD_eq
  intro i hi
  rw [BitVec.getLsbD_and]
  simp only [Instr.commandWord, OpRow.mask, OpRow.matchWord, Format.resMask, BitVec.getLsbD_append]
  interval_cases i <;> simp

theorem close : Statement .close := of_row ⟨"CLOSE", 0x2, .fn⟩ (by decide) rfl (by decide)

theorem setPixel (idx : Int) (red green blue : Byte) : Statement (.setPixel idx red green blue) :=
  of_row ⟨"SET_PIXEL", 0x3, .fx⟩ (by decide) rfl (fx_match 0x3 (BitVec.ofInt 16 idx))

theorem getPixel (idx : Int) : Statement (.getPixel idx) :=
  of_row ⟨"GET_PIXEL", 0x4, .fx⟩ (by decide) rfl (fx_match 0x4 (BitVec.ofInt 16 idx))

theorem setBrightness (idx : Int) (bri : Nat) : Statement (.setBrightness idx bri) := by
  refine of_row ⟨"SET_BRIGHTNESS", 0x5, .fxb⟩ (by decide) rfl ?_
  apply BitVec.eq_of_getLsbD_eq
  intro i hi
  rw [BitVec.getLsbD_and]
  simp only [Instr.commandWord, OpRow.mask, OpRow.matchWord, Format.resMask, BitVec.getLsbD_append]
  interval_cases i <;> simp

theorem showFrame : Statement .showFrame := of_row ⟨"SHOW", 0x6, .fn⟩ (by decide) rfl (by decide)

theorem syncUp : Statement .syncUp := of_row ⟨"SYNC_UP", 0x7, .fn⟩ (by decide) rfl (by decide)

theorem syncDown : Statement .syncDown := of_row ⟨"SYNC_DOWN", 0x8, .fn⟩ (by decide) rfl (by decide)

theorem rotate (pos : Int) : Statement (.rotate pos) :=
  of_row ⟨"ROTATE", 0x9, .fx⟩ (by decide) rfl (fx_match 0x9 (BitVec.ofInt 16 pos))

theorem clear : Statement .clear := of_row ⟨"CLEAR", 0xA, .fn⟩ (by decide) rfl (by decide)

theorem encPrefix (bri : Nat) : Statement (.encPrefix bri) := by
  refine of_row ⟨"ENC_PREFIX", 0xB, .fb7⟩ (by decide) rfl ?_
  apply BitVec.eq_of_getLsbD_eq
  intro i hi
  rw [BitVec.getLsbD_and]
  simp only [Instr.commandWord, OpRow.mask, OpRow.matchWord, Format.resMask, BitVec.getLsbD_append]
  interval_cases i <;> simp

theorem encEndlen (nl : Nat) : Statement (.encEndlen nl) := by
  refine of_row ⟨"ENC_ENDLEN", 0xC, .fl⟩ (by decide) rfl ?_
  apply BitVec.eq_of_getLsbD_eq
  intro i hi
  rw [BitVec.getLsbD_and]
  simp only [Instr.commandWord, OpRow.mask, OpRow.matchWord, Format.resMask, BitVec.getLsbD_append]
  interval_cases i <;> simp

end Sys2Proof.Laws.TableRow
end

