-- ==== Sys2Proof/Tests/Slice0.lean ====
section
/-! SUPPORT. Tests: ill-formed commands, words written out from 30_encoding.md, single steps from 95_test_vectors.md, and for every
obligation with hypotheses concrete states and operands that meet them.  The expected values are the spec's, not the model's. -/

namespace Sys2Proof.Tests

open Sys2Proof.Machine Sys2Proof.Safety

/-! ### WellFormed refuses what R107 refuses (one ill-formed command for each check) -/

theorem test_wellFormed_count : (Instr.init 2048 0 0 1).wellFormed = false := by decide

theorem test_wellFormed_initial_brightness : (Instr.init 3 128 0 1).wellFormed = false := by decide

theorem test_wellFormed_port : (Instr.init 3 100 16 1).wellFormed = false := by decide

theorem test_wellFormed_index_high : (Instr.setPixel 32768 0 0 0).wellFormed = false ∧ (Instr.getPixel 32768).wellFormed = false := by
  decide

theorem test_wellFormed_index_low : (Instr.rotate (-32769)).wellFormed = false := by decide

theorem test_wellFormed_brightness :
    (Instr.setBrightness 0 128).wellFormed = false ∧ (Instr.setBrightness 40000 0).wellFormed = false ∧
      (Instr.encPrefix 128).wellFormed = false := by decide

theorem test_wellFormed_endlen : (Instr.encEndlen 2048).wellFormed = false := by decide

/-- The least and the greatest operands of R107 are well formed. -/
theorem test_wellFormed_boundaries :
    (Instr.init 2047 127 15 0xFFFFFFFF).wellFormed = true ∧ (Instr.setPixel (-32768) 0 0 0).wellFormed = true ∧
      (Instr.rotate 32767).wellFormed = true ∧ (Instr.setBrightness 32767 127).wellFormed = true ∧
      (Instr.encPrefix 127).wellFormed = true ∧ (Instr.encEndlen 2047).wellFormed = true := by decide

/-! ### Decoding: words written out from the formats of R91 to R97 -/

/-- The match and mask of every row of spec/opcode_table.json. -/
theorem test_opcode_table :
    opcodeMap.map (fun r => (r.mnemonic, r.matchWord, r.mask)) =
      [("NOP", 0x00000000, 0xFFFFFFFF), ("INIT", 0x10000000, 0xFFC00000), ("CLOSE", 0x20000000, 0xFFFFFFFF),
       ("SET_PIXEL", 0x30000000, 0xFFFF0000), ("GET_PIXEL", 0x40000000, 0xFFFF0000), ("SET_BRIGHTNESS", 0x50000000, 0xFF800000),
       ("SHOW", 0x60000000, 0xFFFFFFFF), ("SYNC_UP", 0x70000000, 0xFFFFFFFF), ("SYNC_DOWN", 0x80000000, 0xFFFFFFFF),
       ("ROTATE", 0x90000000, 0xFFFF0000), ("CLEAR", 0xA0000000, 0xFFFFFFFF), ("ENC_PREFIX", 0xB0000000, 0xFFFFFF80),
       ("ENC_ENDLEN", 0xC0000000, 0xFFFFF800)] := by decide

theorem test_decode_nop : decode 0x00000000 0 = .ok .nop := by rfl

/-- OP 0001, RES 000000, PORT 1001, IBRI 1111111, NLEDS 00000000011. -/
theorem test_decode_init : decode 0b00010000001001111111100000000011 0x000F4240 = .ok (.init 3 127 9 1000000) := by rfl

theorem test_decode_close : decode 0x20000000 0 = .ok .close := by rfl

/-- OP 0011, RES 0, IDX 1111111111111111 (-1); ARG holds red 0x12, green 0x34, blue 0x56. -/
theorem test_decode_setPixel : decode 0b00110000000000001111111111111111 0x00123456 = .ok (.setPixel (-1) 0x12 0x34 0x56) := by rfl

/-- IDX 1000000000000000 is -32768, IDX 0111111111111111 is 32767. -/
theorem test_decode_getPixel :
    decode 0x40008000 0 = .ok (.getPixel (-32768)) ∧ decode 0x40007FFF 0 = .ok (.getPixel 32767) := ⟨rfl, rfl⟩

/-- OP 0101, RES 00000, BRI 1100101, IDX 1111111111111111. -/
theorem test_decode_setBrightness : decode 0b01010000011001011111111111111111 0 = .ok (.setBrightness (-1) 101) := by rfl

theorem test_decode_show : decode 0x60000000 0 = .ok .showFrame := by rfl

theorem test_decode_syncUp : decode 0x70000000 0 = .ok .syncUp := by rfl

theorem test_decode_syncDown : decode 0x80000000 0 = .ok .syncDown := by rfl

theorem test_decode_rotate : decode 0x9000FFFB 0 = .ok (.rotate (-5)) := by rfl

theorem test_decode_clear : decode 0xA0000000 0 = .ok .clear := by rfl

/-- OP 1011, RES 0, BRI 0110010. -/
theorem test_decode_encPrefix : decode 0b10110000000000000000000000110010 0 = .ok (.encPrefix 50) := by rfl

/-- OP 1100, RES 0, NL 11111111111. -/
theorem test_decode_encEndlen : decode 0b11000000000000000000011111111111 0 = .ok (.encEndlen 2047) := by rfl

/-- Every RES field refuses a 1 at its lowest and its highest bit (R101). -/
theorem test_decode_reserved_bits :
    decode 0x00000001 0 = .error .reservedBits ∧ decode 0x08000000 0 = .error .reservedBits ∧
    decode 0x10432003 1 = .error .reservedBits ∧ decode 0x18000000 1 = .error .reservedBits ∧
    decode 0x30010000 0 = .error .reservedBits ∧ decode 0x50800000 0 = .error .reservedBits ∧
    decode 0x90010000 0 = .error .reservedBits ∧ decode 0xB0000080 0 = .error .reservedBits ∧
    decode 0xC0000800 0 = .error .reservedBits := ⟨rfl, rfl, rfl, rfl, rfl, rfl, rfl, rfl, rfl⟩

/-- R102 and R103. -/
theorem test_decode_reserved_opcode :
    decode 0xD0000000 0 = .error .reservedOpcode ∧ decode 0xE0000000 0 = .error .reservedOpcode ∧
    decode 0xFFFFFFFF 0 = .error .reservedOpcode ∧ decode 0x30000000 0x01FFFFFF = .error .reservedArg := ⟨rfl, rfl, rfl, rfl⟩

/-- The table's numbering: the operand word stands above the command word, and is 0 where the table gives it no bits. -/
theorem test_decodeTableWord :
    decodeTableWord 32 0x10032003 = some (.init 3 100 0 0) ∧
    decodeTableWord 64 0x000F424010032003 = some (.init 3 100 0 1000000) ∧ decodeTableWord 32 0xD0000000 = none := by decide

/-! ### Helpers -/

/-- The next state, if there is one. -/
def after (o : Host.Outcome State Fault Refusal) : Option State :=
  match o with
  | .next t => some t
  | .fault _ => none
  | .refused _ => none

/-- The STATUS word of the next state. -/
def statusAfter (o : Host.Outcome State Fault Refusal) : Option Word := (after o).map State.statusWord

/-- The FB bytes of the next state. -/
def fbAfter (o : Host.Outcome State Fault Refusal) : Option (List Byte) := (after o).map fun t => Memory.bytes t.fb (bufferLength t.n)

/-- `s` with a command word and its operand word just accepted. -/
def command (s : State) (cmd arg : Word) : State := { s with cmdL := cmd, argL := arg, phase := .accepted }

/-- A configuration with N pixels on port 0 at 1 MHz, STATUS 0x1006, and the given buffers. -/
def configured (nleds : BitVec 11) (fb mb : Memory) : State :=
  { State.reset with
    nleds := nleds, clkhz := 1000000, fb := fb, mb := mb, cmdL := 0x10032003, argL := 1000000,
    status := { Status.reset with init := true, opened := true, lastop := 1 } }

/-- The state B of 95_test_vectors.md section 0. -/
def stateB : State := configured 3 [(0, 0xFF), (4, 0xFF), (8, 0xFF)] []

/-- B after CLOSE. -/
def closedB : State := { stateB with status := { stateB.status with opened := false, lastop := 2 } }

/-- B with HALT = 1 and OPEN = 0, as a SHOW after CLOSE leaves it (V7.3). -/
def haltedB : State :=
  { stateB with
    status := ⟨true, false, true, true, true, false, .transport, 6⟩, cmdL := 0x60000000, faultLog := [⟨6, .transport, some 0⟩] }

/-- Pixels A, B, C of V6.1. -/
def stateABC : State := configured 3 [(0, 0xFF), (3, 0x0A), (4, 0xFF), (7, 0x0B), (8, 0xFF), (11, 0x0C)] []

/-- A SHOW in progress on port 0: one pixel, serializer step k = 8 (the last of FLEN(1) = 9). -/
def sendingLast : State :=
  { configured 1 [(0, 0xF0), (1, 0xFF), (2, 0x80), (3, 0x01)] [] with
    cmdL := 0x60000000, phase := .showing 8,
    ports := State.reset.ports.set 0 ⟨⟨false, true, false⟩, [0, 0, 0, 0, 0xF0, 0xFF, 0x80, 0x01], []⟩ }

/-- The same at step k = 6 with PORT_FAULT[0] = 1. -/
def sendingFault : State :=
  { configured 1 [(0, 0xE0), (1, 0xFF), (2, 0xFF), (3, 0xFF)] [] with
    cmdL := 0x60000000, phase := .showing 6, portFault := 1,
    ports := State.reset.ports.set 0 ⟨⟨false, true, false⟩, [0, 0, 0, 0, 0xE0, 0xFF], []⟩ }

/-- A SYNC in direction `dir` with offset 5 left. -/
def syncingLast (dir : Direction) : State :=
  { configured 2 [(0, 0xFF), (4, 0xFF), (5, 0x77)] [(0, 0xFF), (4, 0xFF), (5, 0xAB)] with
    cmdL := if dir = .up then 0x70000000 else 0x80000000, phase := .syncing dir [5] }

/-! ### Single steps (95_test_vectors.md) -/

/-- V2.1. -/
theorem test_nop : statusAfter (step (command State.reset 0x00000000 0)) = some 0x0000 ∧
    statusAfter (step (command State.reset 0x00000001 0)) = some 0x0530 := by decide

/-- V2.1, V7.3: HALTED comes first. -/
theorem test_halted : statusAfter (step (command haltedB 0x00000000 0)) = some 0x083A ∧
    statusAfter (step (command haltedB 0xD0000000 0)) = some 0xD83A ∧
    statusAfter (step (command haltedB 0x10032003 1000000)) = some 0x183A := by decide

/-- V2.2 row 1. -/
theorem test_init : statusAfter (step (command State.reset 0x10032003 0x000F4240)) = some 0x1006 ∧
    fbAfter (step (command State.reset 0x10032003 0x000F4240)) = some [0xFF, 0, 0, 0, 0xFF, 0, 0, 0, 0xFF, 0, 0, 0] := by decide

/-- V2.2: CONFIG, TRANSPORT (no clock), RANGE, and the order CONFIG first. -/
theorem test_init_failures : statusAfter (step (command State.reset 0x10032401 0x000F4240)) = some 0x1138 ∧
    statusAfter (step (command State.reset 0x10032003 0)) = some 0x1238 ∧
    statusAfter (step (command State.reset 0x10032803 0x000F4240)) = some 0x1438 ∧
    statusAfter (step (command State.reset 0x1027FC01 0)) = some 0x1138 := by decide

/-- V2.3. -/
theorem test_close : statusAfter (step (command stateB 0x20000000 0)) = some 0x2002 ∧
    statusAfter (step (command closedB 0x20000000 0)) = some 0x2002 ∧
    statusAfter (step (command State.reset 0x20000000 0)) = some 0x2630 := by decide

/-- V3.1 row 1 and row 4. -/
theorem test_setPixel : fbAfter (step (command stateB 0x30000001 0x00123456)) =
      some [0xFF, 0, 0, 0, 0xFF, 0x56, 0x34, 0x12, 0xFF, 0, 0, 0] ∧
    statusAfter (step (command stateB 0x30000001 0x00123456)) = some 0x3006 := by decide

/-- V3.1 rows 3 and 4: a silent no-op. -/
theorem test_setPixel_out_of_range :
    fbAfter (step (command stateB 0x3000FFFF 0x00010101)) = some [0xFF, 0, 0, 0, 0xFF, 0, 0, 0, 0xFF, 0, 0, 0] ∧
    statusAfter (step (command stateB 0x3000FFFF 0x00010101)) = some 0x3006 ∧
    fbAfter (step (command stateB 0x30000003 0x00010101)) = some [0xFF, 0, 0, 0, 0xFF, 0, 0, 0, 0xFF, 0, 0, 0] := by decide

/-- V3.1 row 2: RDATA packs red, green, blue. -/
theorem test_getPixel :
    (after (step (command (configured 3 [(4, 0xFF), (5, 0x56), (6, 0x34), (7, 0x12)] []) 0x40000001 0))).map State.rdata =
      some 0x00123456 := by decide

/-- V3.1 rows 7 and 8: INDEX. -/
theorem test_getPixel_index : statusAfter (step (command stateB 0x40000003 0)) = some 0x4336 ∧
    statusAfter (step (command stateB 0x4000FFFF 0)) = some 0x4336 := by decide

/-- V3.2 row 1. -/
theorem test_setBrightness : fbAfter (step (command stateB 0x50320000 0)) =
      some [0xF0, 0, 0, 0, 0xFF, 0, 0, 0, 0xFF, 0, 0, 0] := by decide

/-- V3.2 rows 4 and 5: a silent no-op at i = N, and RANGE before the index. -/
theorem test_setBrightness_range : statusAfter (step (command stateB 0x50320003 0)) = some 0x5006 ∧
    statusAfter (step (command stateB 0x5065FFFF 0)) = some 0x5436 := by decide

/-- V4.3: SHOW after CLOSE, and before INIT. -/
theorem test_show_failures : statusAfter (step (command closedB 0x60000000 0)) = some 0x623A ∧
    statusAfter (step (command State.reset 0x60000000 0)) = some 0x6630 := by decide

/-- V4.1 with n = 1: the last byte's step ends the frame. -/
theorem test_show_last_byte : statusAfter (step sendingLast) = some 0x6006 ∧
    (after (step sendingLast)).map (fun t => (t.port 0).frames) = some [⟨[0, 0, 0, 0, 0xF0, 0xFF, 0x80, 0x01, 0x00], []⟩] := by decide

/-- V5.1: the step that copies the last byte left (offset 5) completes the command. -/
theorem test_syncUp : (copyStep .up [5] 5 (syncingLast .up)).statusWord = 0x7006 ∧
    Memory.bytes (copyStep .up [5] 5 (syncingLast .up)).mb 8 = [0xFF, 0, 0, 0, 0xFF, 0x77, 0, 0] ∧
    Memory.bytes (copyStep .up [5] 5 (syncingLast .up)).fb 8 = [0xFF, 0, 0, 0, 0xFF, 0x77, 0, 0] := by decide

theorem test_syncDown : (copyStep .down [5] 5 (syncingLast .down)).statusWord = 0x8006 ∧
    Memory.bytes (copyStep .down [5] 5 (syncingLast .down)).fb 8 = [0xFF, 0, 0, 0, 0xFF, 0xAB, 0, 0] ∧
    Memory.bytes (copyStep .down [5] 5 (syncingLast .down)).mb 8 = [0xFF, 0, 0, 0, 0xFF, 0xAB, 0, 0] := by decide

/-- V6.1: ROTATE 1 is B C A, ROTATE -1 is C A B. -/
theorem test_rotate : fbAfter (step (command stateABC 0x90000001 0)) =
      some [0xFF, 0, 0, 0x0B, 0xFF, 0, 0, 0x0C, 0xFF, 0, 0, 0x0A] ∧
    fbAfter (step (command stateABC 0x9000FFFF 0)) = some [0xFF, 0, 0, 0x0C, 0xFF, 0, 0, 0x0A, 0xFF, 0, 0, 0x0B] := by decide

/-- V6.1: DIVZERO with N = 0, NOT_INIT before INIT. -/
theorem test_rotate_failures : statusAfter (step (command (configured 0 [] []) 0x90000001 0)) = some 0x9736 ∧
    statusAfter (step (command State.reset 0x90000000 0)) = some 0x9630 := by decide

/-- V6.2 row 1. -/
theorem test_clear : fbAfter (step (command
      (configured 2 [(0, 0xF0), (1, 0x13), (2, 0x12), (3, 0x11), (4, 0xE0), (5, 0x33), (6, 0x32), (7, 0x31)] []) 0xA0000000 0)) =
      some [0xF0, 0, 0, 0, 0xE0, 0, 0, 0] := by decide

/-- V1.2: the tie b = 50, and RANGE at 101. -/
theorem test_encPrefix : (after (step (command State.reset 0xB0000032 0))).map State.rdata = some 0x000000F0 ∧
    statusAfter (step (command State.reset 0xB0000032 0)) = some 0xB000 ∧
    statusAfter (step (command State.reset 0xB0000065 0)) = some 0xB430 := by decide

/-- V1.1: the places where P(b) changes around the ends and the tie. -/
theorem test_prefix_values : prefixByte 0 = 0xE0 ∧ prefixByte 1 = 0xE0 ∧ prefixByte 2 = 0xE1 ∧ prefixByte 49 = 0xEF ∧
    prefixByte 50 = 0xF0 ∧ prefixByte 98 = 0xFE ∧ prefixByte 99 = 0xFF ∧ prefixByte 100 = 0xFF := by decide

/-- V1.2 and V1.4. -/
theorem test_encEndlen : (after (step (command State.reset 0xC0000011 0))).map State.rdata = some 0x00000002 ∧
    (after (step (command State.reset 0xC00007FF 0))).map State.rdata = some 0x00000080 := by decide

/-- V1.4: FRAMELEN. -/
theorem test_frameLength : frameLength 0 = 4 ∧ frameLength 16 = 69 ∧ frameLength 17 = 74 ∧ frameLength 1024 = 4164 := by decide

/-- V8.2 rows 2 and 7: a dropped CMD write sets OVR, and a STATUS write clears only ANYERR and OVR. -/
theorem test_status_bits :
    statusAfter (step { command stateB 0x60000000 0 with inputs := [.hostWrite 0x00 4 0] }) = some 0x1047 ∧
    statusAfter (step { stateB with
      status := ⟨true, true, false, true, true, true, .index, 4⟩, inputs := [.hostWrite 0x08 4 0x0000FFFF] }) = some 0x4316 := by
  decide

/-- V8.1: FRAMELEN of B is 17. -/
theorem test_read_framelen : (after (step { stateB with inputs := [.hostRead 0x1C 4] })).map State.hostAnswer = some (.data 17) := by
  decide

/-- V8.1: an access at 0x20 and a 16-bit read are bus errors with the refusal mark. -/
theorem test_bus_errors :
    ∀ i ∈ [Input.hostRead 0x20 4, Input.hostRead 0x08 2, Input.hostRead 0x02 4, Input.hostWrite 0x20 4 0],
      (after (step { stateB with inputs := [i] })).map (fun t => (t.hostAnswer, t.refusalMark)) = some (.busError, true) := by decide

/-- V5.3: N = 2 admits MB_ADDR 7 and refuses 8; CleanReset refuses 0. -/
theorem test_mirror_admission :
    mirrorAdmits (configured 2 [] []) 7 = true ∧ mirrorAdmits (configured 2 [] []) 8 = false ∧ mirrorAdmits State.reset 0 = false := by
  decide

/-- R108: CLEANUP is DO CLEAR; DO SHOW; DO CLOSE, and on the bus WAIT and CHECK are MemRead(0x08, 4). -/
theorem test_cleanup : HostLine.cleanup.expand = some
      [.write 0x00 4 0xA0000000, .pollStatus, .checkStatus, .write 0x00 4 0x60000000, .pollStatus, .checkStatus,
       .write 0x00 4 0x20000000, .pollStatus, .checkStatus] ∧
    HostAction.pollStatus.request = .hostRead 0x08 4 ∧ HostAction.checkStatus.request = .hostRead 0x08 4 := by decide

/-- R107: a line within its ranges is its command; an operand outside its range, a wrong count and an unknown mnemonic are refused, and a
program with such a line is none. -/
theorem test_assembler :
    parseCommand "INIT" [3, 100, 0, 1000000] = some (.init 3 100 0 1000000) ∧ parseCommand "SET_PIXEL" [0, 256, 0, 0] = none ∧
    parseCommand "ENC_PREFIX" [128] = none ∧ parseCommand "SHOW" [0] = none ∧ parseCommand "HALT" [] = none ∧
    assembleLine "SET_PIXEL" [0, 255, 0, 0] = some [.write 0x04 4 0x00FF0000, .write 0x00 4 0x30000000] ∧
    (HostLine.command (.encPrefix 128)).expand = none ∧ hostProgram [.wait, .doCommand (.encPrefix 128)] [] [] = none := by decide

/-- R108: WAIT repeats while BUSY = 1 and goes on at BUSY = 0; a failed CHECK takes the body to the shutdown work. -/
theorem test_wait_and_check :
    (HostProgram.move ⟨[.pollStatus], [], [], .body, false⟩ (command stateB 0 0)).1.todo = [.pollStatus] ∧
    (HostProgram.move ⟨[.pollStatus, .checkStatus], [], [], .body, false⟩ stateB).1.todo = [.checkStatus] ∧
    (HostProgram.move ⟨[.checkStatus, .pollStatus], [.checkStatus], [.pollStatus], .body, false⟩ haltedB).1 =
      ⟨[.checkStatus], [.checkStatus], [.pollStatus], .shutdown, true⟩ := by decide

/-- R292: a CHECK that fails in the shutdown work still leads to the cleanup, one that fails in the cleanup goes on to CLOSE, and a
cancelled body waits for BUSY = 0 first; a cancellation in the cleanup changes nothing. -/
theorem test_exit_path :
    (HostProgram.move ⟨[.checkStatus, .pollStatus], [], [.write 0 4 0xA0000000], .shutdown, false⟩ haltedB).1.todo =
      [.write 0 4 0xA0000000] ∧
    (HostProgram.move ⟨[.checkStatus, .write 0 4 0x20000000], [], [], .cleanup, false⟩ haltedB).1 =
      ⟨[.write 0 4 0x20000000], [], [], .cleanup, true⟩ ∧
    (HostProgram.cancel ⟨[.checkStatus], [.read 0x0C 4], [], .body, false⟩).todo = [.pollStatus, .read 0x0C 4] ∧
    (HostProgram.cancel ⟨[.checkStatus], [.read 0x0C 4], [], .cleanup, false⟩).todo = [.checkStatus] := by decide

/-- Program P1 of 95_test_vectors.md, its cleanup on the exit path. -/
def programP1Lines : List HostLine :=
  [.doCommand (.init 3 100 0 1000000), .doCommand (.setPixel 0 255 0 0), .doCommand (.setPixel 1 0 255 0),
   .doCommand (.setPixel 2 0 0 255), .doCommand .showFrame]

def programP1 : HostProgram := (hostProgram programP1Lines [] [.cleanup]).getD ⟨[], [], [], .body, false⟩

theorem programP1_assembles : hostProgram programP1Lines [] [.cleanup] = some programP1 := by decide

/-- P1 "keeps the cleanup duty". -/
theorem programP1_duties : HostDuties programP1 where
  fresh := by decide
  kept := by decide
  cancelled := by decide
  cleanup := .inr (by decide)
  once := by decide

/-- R279, R280, R290: a CMD write without the WAIT, an INIT without ARG, a SHOW without the CHECK, one without the WAIT, and a 16-bit read
each break a duty; a last NOP needs no WAIT. -/
theorem test_duties_broken :
    keepsDuties Owed.settled Owed.nothing [.write 0x00 4 0, .write 0x00 4 0, .pollStatus] = false ∧
    keepsDuties Owed.settled Owed.nothing [.write 0x00 4 0x10032003, .pollStatus, .checkStatus] = false ∧
    keepsDuties Owed.settled Owed.nothing [.write 0x00 4 0x60000000, .pollStatus] = false ∧
    keepsDuties Owed.settled Owed.nothing [.write 0x00 4 0x60000000, .checkStatus] = false ∧
    keepsDuties Owed.settled Owed.nothing [.read 0x08 2] = false ∧
    keepsDuties Owed.settled Owed.nothing [.write 0x00 4 0] = true := by
  decide

/-- The host's question about the table: a placed command is the one the next step runs, as the first after reset. -/
theorem test_withFetchWord : statusAfter (step (State.reset.withFetchWord 32 0xB0000032)) = some 0xB000 ∧
    statusAfter (step (State.reset.withFetchWord 64 0x000F424010032003)) = some 0x1006 := by decide

/-! ### Witnesses: for each obligation with hypotheses, states and operands that meet them -/

/-- Every port of a state whose ports are those of reset is idle. -/
theorem ports_idle (s : State) (h : s.ports = State.reset.ports) (p : PortIndex) : portIdle (s.port p) := by
  rw [Sys2Proof.Laws.port_congr s State.reset p h]
  unfold State.port State.reset
  rw [Vector.getElem_replicate]
  exact ⟨rfl, rfl⟩

/-- A configured state is sound in every phase with no frame or copy in progress. -/
theorem wireSound_of_idle (s : State) (h : s.ports = State.reset.ports) (hp : ∀ k, s.phase ≠ .showing k) : WireSound s :=
  ⟨fun p _ => ports_idle s h p, fun k e => absurd e (hp k)⟩

/-- B with a CLEAR just accepted. -/
theorem clearB_configSound : ConfigSound (command stateB 0xA0000000 0) where
  count := by decide
  openInit := by decide
  haltClosed := by decide
  unbuilt := by decide
  portExists := Nat.succ_pos _
  clock := by decide
  fbLength := fun _ => by decide
  mbLength := fun _ => by decide
  syncing := fun _ _ h => nomatch h

theorem stateB_configSound : ConfigSound stateB where
  count := by decide
  openInit := by decide
  haltClosed := by decide
  unbuilt := by decide
  portExists := Nat.succ_pos _
  clock := by decide
  fbLength := fun _ => by decide
  mbLength := fun _ => by decide
  syncing := fun _ _ h => nomatch h

theorem haltedB_configSound : ConfigSound haltedB where
  count := by decide
  openInit := by decide
  haltClosed := by decide
  unbuilt := by decide
  portExists := Nat.succ_pos _
  clock := by decide
  fbLength := fun _ => by decide
  mbLength := fun _ => by decide
  syncing := fun _ _ h => nomatch h

theorem stateB_wireSound : WireSound stateB := wireSound_of_idle stateB rfl (fun _ h => nomatch h)

theorem haltedB_wireSound : WireSound haltedB := wireSound_of_idle haltedB rfl (fun _ h => nomatch h)

/-- A SHOW with k bytes sent is a sound state of the ports. -/
theorem sendingLast_wireSound : WireSound sendingLast where
  others := by
    intro p hp
    have hne : p ≠ 0 := by
      rcases hp with h | h
      · exact h
      · exact absurd rfl (h 8)
    have hall : ∀ q : PortIndex, q ≠ 0 → (sendingLast.port q).levels = Levels.idle ∧ (sendingLast.port q).live = [] := by decide
    exact hall p hne
  sending := fun k h => by cases h; decide

theorem not_copyingDown (s : State) (h : ∀ rest, s.phase ≠ .syncing .down rest) : ¬copyingDown s := fun ⟨_, rest, e⟩ => h rest e

/-- The two ways the sequencer moves. -/
theorem moves_nothing_pending (s : State) (h : s.inputs = []) : sequencerMoves s [] := .inl ⟨h, rfl⟩

theorem moves_by_turn (s : State) (pending : List Input) : sequencerMoves { s with inputs := .turn :: pending } pending := .inr rfl

theorem witness_DecodeOfEncodeIsTheCommand : (Instr.init 2047 127 15 0xFFFFFFFF).wellFormed = true := by decide

theorem witness_EncodeOfDecodeIsTheWord : decode 0x5065FFFF 0x12345678 = .ok (.setBrightness (-1) 101) := by rfl

/-- A row that matches, an operand word that matters, and one that does not. -/
theorem witness_DecodingIsTotalAndUnambiguous :
    (∃ r ∈ opcodeMap, r.matchesWord 0x30008000 = true) ∧ decode 0x30008000 0x00FFFFFF = .ok (.setPixel (-32768) 0xFF 0xFF 0xFF) :=
  ⟨⟨⟨"SET_PIXEL", 0x3, .fx⟩, by decide, by decide⟩, rfl⟩

theorem witness_OnlyInitAndSetPixelReadArg :
    ((0x20000000 : Word).extractLsb' 28 4 ≠ 0x1 ∧ (0x20000000 : Word).extractLsb' 28 4 ≠ 0x3) ∧
    ((0x10032003 : Word).extractLsb' 28 4 = 0x1 ∧ ∃ i, decode 0x10032003 0xFFFFFFFF = .ok i) :=
  ⟨by decide, by decide, _, rfl⟩

theorem witness_ByteLanesAreLittleEndian : (3 < 4 ∧ 7 < 8) ∧ byteLane 0x12345678 3 = 0x12 ∧ byteLane 0x12345678 0 = 0x78 := by decide

theorem witness_StepRunsTheDecodedCommand :
    (command stateB 0x60000000 0).phase = .accepted ∧
    decode (command stateB 0x60000000 0).cmdL (command stateB 0x60000000 0).argL = .ok .showFrame ∧
    (command stateB 0x60000000 0).inputs = [] ∧ (State.reset.withFetchWord 32 0x60000000).inputs = .turn :: [] := by
  refine ⟨rfl, rfl, rfl, rfl⟩

/-- With an operand word and without one. -/
theorem witness_AssembledCommandIsAcceptedAndRun :
    ((Instr.setPixel (-1) 1 2 3).wellFormed = true ∧
      ({ stateB with inputs := busWrites (.setPixel (-1) 1 2 3) ++ .turn :: [] } : State).phase = .idle) ∧
    (Instr.clear.wellFormed = true ∧ ({ stateB with inputs := busWrites .clear ++ .turn :: [] } : State).phase = .idle) := by decide

/-- One state for each of the three ways to be ILLEGAL. -/
theorem witness_ReservedWordsFailAsIllegal :
    ((command stateB 0xD0000000 0).phase = .accepted ∧ (command stateB 0xD0000000 0).inputs = [] ∧
      (command stateB 0xD0000000 0).status.halt = false ∧ 0xD ≤ ((command stateB 0xD0000000 0).cmdL.extractLsb' 28 4).toNat) ∧
    (∃ r ∈ opcodeMap, r.op = (command stateB 0x10432003 0).cmdL.extractLsb' 28 4 ∧
      (command stateB 0x10432003 0).cmdL &&& r.format.resMask ≠ 0) ∧
    ((command stateB 0x30000000 0x01FFFFFF).cmdL.extractLsb' 28 4 = 0x3 ∧
      (command stateB 0x30000000 0x01FFFFFF).argL.extractLsb' 24 8 ≠ 0) :=
  ⟨by decide, ⟨⟨"INIT", 0x1, .fi⟩, by decide, by decide, by decide⟩, by decide⟩

theorem witness_HaltedRefusesEveryCommand : (command haltedB 0xD0000000 0).phase = .accepted ∧
    sequencerMoves (command haltedB 0xD0000000 0) [] ∧ (command haltedB 0xD0000000 0).status.halt = true :=
  ⟨rfl, moves_nothing_pending _ rfl, rfl⟩

/-- The same by an explicit turn with a mirror access still pending: the form that O9, O10, O27, O29 and O33 share. -/
theorem witness_turn_form :
    sequencerMoves { command haltedB 0xD0000000 0 with inputs := [.turn, .mirrorRead 0] } [.mirrorRead 0] ∧
    sequencerMoves { command stateB 0xD0000000 0 with inputs := [.turn, .mirrorRead 0] } [.mirrorRead 0] ∧
    sequencerMoves { sendingLast with inputs := [.turn, .mirrorRead 0] } [.mirrorRead 0] ∧
    sequencerMoves { sendingFault with inputs := [.turn, .mirrorRead 0] } [.mirrorRead 0] ∧
    sequencerMoves { syncingLast .down with inputs := [.turn, .mirrorWrite 0 1] } [.mirrorWrite 0 1] :=
  ⟨moves_by_turn _ _, moves_by_turn _ _, moves_by_turn _ _, moves_by_turn _ _, moves_by_turn _ _⟩

theorem witness_CommandsBeforeInitAreRefused : needsConfiguration .syncDown = true ∧ State.reset.status.halt = false ∧
    State.reset.status.init = false := by decide

theorem witness_NopOnlyUpdatesStatus : State.reset.status.halt = false := by decide

/-- The greatest count and brightness, on the one port that every instance has. -/
theorem witness_InitConstructsTheConfiguration : State.reset.status.halt = false ∧ (1024 : Nat) ≤ 1024 ∧ 0 < Config.numPorts ∧
    (1 : Word) ≠ 0 ∧ State.reset.faultAt 0 = false ∧ (100 : Nat) ≤ 100 :=
  ⟨by decide, by decide, Nat.succ_pos _, by decide, by decide, by decide⟩

/-- The state, and operands for each of the three causes at the least value that has it (a port past every NUM_PORTS, no clock, a fault). -/
theorem witness_InitFailuresAreFatal :
    (command stateB 0 0).status.halt = false ∧ (command stateB 0 0).phase = .accepted ∧ WireSound (command stateB 0 0) ∧
    1024 < 1025 ∧ 100 < 101 ∧ Config.numPorts ≤ 16 ∧ ({ stateB with portFault := 1 } : State).faultAt 0 = true :=
  ⟨by decide, by decide, wireSound_of_idle _ rfl (fun _ h => nomatch h), by decide, by decide, Config.extraPorts.isLt, by decide⟩

/-- Open and already closed. -/
theorem witness_CloseReleasesTheTransport : (stateB.status.halt = false ∧ stateB.status.init = true ∧ stateB.status.opened = true) ∧
    closedB.status.halt = false ∧ closedB.status.init = true ∧ closedB.status.opened = false := by decide

/-- The first and last pixel in range, and the indices on either side. -/
theorem witness_SetPixelWritesItsThreeBytes : stateB.status.halt = false ∧ stateB.status.init = true ∧
    ((0 : Int) ≤ 0 ∧ (0 : Int) < stateB.n) ∧ ((0 : Int) ≤ 2 ∧ (2 : Int) < stateB.n) ∧ (-1 : Int) < 0 ∧ (stateB.n : Int) ≤ 3 := by
  decide

theorem witness_GetPixelReturnsTheColour : stateB.status.halt = false ∧ stateB.status.init = true ∧ (0 : Int) ≤ 2 ∧
    (2 : Int) < stateB.n := by decide

theorem witness_GetPixelOutOfRangeFailsWithIndex : stateB.status.halt = false ∧ stateB.status.init = true ∧ (-1 : Int) < 0 ∧
    (stateB.n : Int) ≤ 3 := by decide

/-- The other index in range, and out of range. -/
theorem witness_GetPixelAfterSetPixel : stateB.status.halt = false ∧ stateB.status.init = true ∧ (0 : Int) ≤ 0 ∧
    (0 : Int) < stateB.n ∧ (2 : Int) ≠ 0 ∧ (-1 : Int) ≠ 0 := by decide

theorem witness_SetBrightnessWritesThePrefixByte : stateB.status.halt = false ∧ stateB.status.init = true ∧ 100 ≤ 100 ∧
    (0 : Int) ≤ 2 ∧ (2 : Int) < stateB.n := by decide

theorem witness_SetBrightnessRangeAndOutOfRangeIndex : stateB.status.halt = false ∧ stateB.status.init = true ∧ 100 < 101 ∧
    (100 ≤ 100 ∧ (stateB.n : Int) ≤ 3) ∧ (0 ≤ 100 ∧ (-1 : Int) < 0) := by decide

theorem witness_QuantizerRoundsToNearest : 0 ≤ 100 ∧ 100 ≤ 100 ∧ 31 ≤ 31 ∧ 200 * quantize 50 = 62 * 50 + 100 := by decide

theorem witness_EncPrefixReturnsThePrefixByte : stateB.status.halt = false ∧ 100 ≤ 100 ∧ 100 < 101 ∧
    (stateB.status.init = true ∧ (0 : Int) ≤ 2 ∧ (2 : Int) < stateB.n) := by decide

theorem witness_EncEndlenReturnsThePaddingLength : State.reset.status.halt = false ∧ 2047 ≤ 2047 := by decide

/-- The first byte, the first and last pixel byte, and the last padding byte of N = 3. -/
theorem witness_FrameIsTheFrameBytes : 0 < frameLength stateB.n ∧ 4 < frameLength stateB.n ∧ 15 < frameLength stateB.n ∧
    16 < frameLength stateB.n ∧ ¬17 < frameLength stateB.n := by decide

/-- The first step, a step that is not the last, and the last. -/
theorem witness_ShowSendsOneByteAStep :
    (stateB.status.halt = false ∧ stateB.status.init = true ∧ stateB.status.opened = true) ∧
    (({ stateB with phase := .showing 0 } : State).inputs = [] ∧ 0 < frameLength stateB.n ∧ 0 + 1 ≠ frameLength stateB.n ∧
      stateB.faultAt stateB.portcfg.toNat = false) ∧
    (sendingLast.inputs = [] ∧ sendingLast.phase = .showing 8 ∧ 8 < frameLength sendingLast.n ∧ 8 + 1 = frameLength sendingLast.n ∧
      sendingLast.faultAt sendingLast.portcfg.toNat = false) := by decide

theorem witness_ShowAfterCloseIsFatal : closedB.status.halt = false ∧ closedB.status.init = true ∧ closedB.status.opened = false ∧
    portIdle (closedB.port closedB.portcfg) := ⟨by decide, by decide, by decide, ports_idle closedB rfl _⟩

theorem witness_PortFaultEndsTheFrame : sendingFault.inputs = [] ∧ sendingFault.phase = .showing 6 ∧
    6 < frameLength sendingFault.n ∧ sendingFault.faultAt sendingFault.portcfg.toNat = true ∧
    (sendingFault.port sendingFault.portcfg).levels.csN = false := by decide

theorem witness_ShowSendsExactlyTheFrame : (command stateB 0x60000000 0).phase = .accepted ∧
    (command stateB 0x60000000 0).cmdL = 0x60000000 ∧ (command stateB 0x60000000 0).inputs = [] ∧ stateB.status.halt = false ∧
    stateB.status.init = true ∧ stateB.status.opened = true ∧ stateB.faultAt stateB.portcfg.toNat = false := by decide

/-- N = 0 and N = 3. -/
theorem witness_SyncStartsWithEveryOffset : stateB.status.halt = false ∧ stateB.status.init = true ∧ stateB.n ≠ 0 ∧
    (configured 0 [] []).status.halt = false ∧ (configured 0 [] []).status.init = true ∧ (configured 0 [] []).n = 0 := by decide

/-- The last offset in either direction, and more than one left. -/
theorem witness_SyncStepCopiesOneByte :
    ((syncingLast .up).inputs = [] ∧ (syncingLast .up).phase = .syncing .up [5] ∧ [5] ≠ []) ∧
    ((syncingLast .down).inputs = [] ∧ (syncingLast .down).phase = .syncing .down [5]) ∧
    ({ stateB with phase := .syncing .up [0, 11] } : State).inputs = [] ∧ [0, 11] ≠ [] := by decide

theorem witness_SyncCopiesTheWholeBuffer :
    ((command stateB 0x70000000 0).phase = .accepted ∧ (command stateB 0x70000000 0).inputs = [] ∧ stateB.status.halt = false ∧
      stateB.status.init = true ∧ (command stateB 0x70000000 0).cmdL = 0x70000000) ∧
    (command stateB 0x80000000 0).phase = .accepted ∧ (command stateB 0x80000000 0).cmdL = 0x80000000 := by decide

theorem witness_SyncUpThenSyncDownIsANoOp : (command stateB 0x70000000 0).phase = .accepted ∧
    (command stateB 0x70000000 0).cmdL = 0x70000000 ∧ (command stateB 0x70000000 0).inputs = [] ∧
    stateB.status.halt = false ∧ stateB.status.init = true := by decide

/-- The last admitted offset and the first refused one, for a read and for a write. -/
theorem witness_MirrorPortAdmitsExactlyTheBuffer :
    ({ stateB with inputs := [.mirrorRead 11] } : State).inputs = .mirrorRead 11 :: [] ∧
    ({ stateB with inputs := [.mirrorWrite 11 0x55] } : State).inputs = .mirrorWrite 11 0x55 :: [] ∧
    (stateB.status.init = true ∧ (11 : MirrorAddr).toNat < 4 * stateB.n) ∧ ¬(12 : MirrorAddr).toNat < 4 * stateB.n := by decide

/-- Neither a copy step of SYNC_UP nor a mirror access during a SYNC_DOWN is a copy step of SYNC_DOWN; each answers a next state. -/
theorem witness_MirrorContentsReachOnlyTheMirrorPort : ¬copyingDown stateB ∧ ¬copyingDown (syncingLast .up) ∧
    (∃ t, step (syncingLast .up) = .next t) ∧ ¬copyingDown { syncingLast .down with inputs := [.mirrorRead 0, .turn] } ∧
    ∃ t, step { syncingLast .down with inputs := [.mirrorRead 0, .turn] } = .next t :=
  ⟨not_copyingDown _ (fun _ e => nomatch e), not_copyingDown _ (fun _ e => nomatch e), ⟨_, rfl⟩,
    fun ⟨⟨_, h⟩, _⟩ => h.elim (fun h => nomatch h.1) (fun h => nomatch h), _, rfl⟩

/-- N > 0 and N = 0. -/
theorem witness_RotateMovesPixelRecords : stateABC.status.halt = false ∧ stateABC.status.init = true ∧ 0 < stateABC.n ∧
    (0 < stateABC.n ∧ 3 < 4) ∧ (2 < stateABC.n) ∧
    (configured 0 [] []).status.halt = false ∧ (configured 0 [] []).status.init = true ∧ (configured 0 [] []).n = 0 := by decide

theorem witness_RotateThenInverseRestores : stateABC.status.halt = false ∧ stateABC.status.init = true ∧ 0 < stateABC.n ∧
    ((-32768 : Int) + 2) % (stateABC.n : Int) = 0 ∧ ((1 : Int) + -1) % (stateABC.n : Int) = 0 := by decide

theorem witness_ClearKeepsThePrefixBytes : stateB.status.halt = false ∧ stateB.status.init = true ∧ 0 < stateB.n ∧ 2 < stateB.n := by
  decide

theorem witness_CommandsLeaveTheRestUnchanged : ∃ t, exec (.setPixel 1 2 3 4) stateB = .next t := ⟨_, rfl⟩

theorem witness_CommandWriteIsAccepted :
    ({ stateB with inputs := [.hostWrite 0x00 4 0x60000000] } : State).inputs = .hostWrite 0x00 4 0x60000000 :: [] ∧
    ({ stateB with inputs := [.hostWrite 0x00 4 0x60000000] } : State).busy = false := by decide

theorem witness_CommandWriteWhileBusyIsDropped :
    ({ sendingLast with inputs := [.hostWrite 0x00 4 0] } : State).inputs = .hostWrite 0x00 4 0 :: [] ∧
    ({ sendingLast with inputs := [.hostWrite 0x00 4 0] } : State).busy = true := by decide

theorem witness_StatusRegisterFieldsAndClearing :
    ({ stateB with inputs := [.hostWrite 0x08 4 0x60] } : State).inputs = .hostWrite 0x08 4 0x60 :: [] := by decide

/-- A wrong width, a wrong alignment, and the first offset past the window; as a read and as a write. -/
theorem witness_BadHostAccessIsRefused : (2 ≠ 4 ∧ 0x02 % 4 ≠ 0 ∧ 0x20 ≤ 0x20) ∧
    ({ stateB with inputs := [.hostRead 0x20 4] } : State).inputs = .hostRead 0x20 4 :: [] ∧
    ({ stateB with inputs := [.hostWrite 0x02 4 0] } : State).inputs = .hostWrite 0x02 4 0 :: [] := by decide

/-- The first and the last register. -/
theorem witness_HostReadsReturnTheRegisters : (0 < 8 ∧ 7 < 8) ∧ stateB.n ≤ 1024 ∧
    ({ stateB with inputs := [.hostRead (4 * 7) 4] } : State).inputs = .hostRead (4 * 7) 4 :: [] := by decide

/-- ARG, and the first and last read-only register. -/
theorem witness_OtherRegisterWrites :
    ({ stateB with inputs := [.hostWrite 0x04 4 1] } : State).inputs = .hostWrite 0x04 4 1 :: [] ∧
    ({ stateB with inputs := [.hostWrite 0x0C 4 1] } : State).inputs = .hostWrite 0x0C 4 1 :: [] ∧
    ({ stateB with inputs := [.hostWrite 0x1C 4 1] } : State).inputs = .hostWrite 0x1C 4 1 :: [] := by decide

theorem witness_PlatformDrivesOnePortFault :
    ({ stateB with inputs := [.portFault 15 true] } : State).inputs = .portFault 15 true :: [] ∧
    ({ stateB with inputs := [.portFault 0 false] } : State).inputs = .portFault 0 false :: [] := by decide

theorem witness_NoStepClearsHalt : haltedB.status.halt = true ∧ ConfigSound haltedB ∧ WireSound haltedB ∧
    ∃ t, step (command haltedB 0 0) = .next t := ⟨by decide, haltedB_configSound, haltedB_wireSound, _, rfl⟩

theorem witness_StepKeepsBuffersCanonical : buffersCanonical (command stateB 0x30000001 0x00123456) ∧
    ∃ t, step (command stateB 0x30000001 0x00123456) = .next t := ⟨by unfold buffersCanonical; decide, _, rfl⟩

/-- CleanReset with any inputs and any PORT_FAULT levels, and P1 as the host. -/
theorem witness_LaunchPremises :
    LaunchPremises programP1 { State.reset with inputs := [.portFault 2 true, .mirrorRead 0], portFault := 4 } where
  clean := rfl
  duties := programP1_duties
  oneMaster := by decide

theorem witness_StepKeepsTheConfigurationSound : ConfigSound (command stateB 0xA0000000 0) ∧
    ∃ t, step (command stateB 0xA0000000 0) = .next t := ⟨clearB_configSound, _, rfl⟩

/-- Idle, and in the middle of a frame. -/
theorem witness_StepKeepsTheWireSound : (WireSound stateB ∧ ∃ t, step stateB = .next t) ∧ WireSound sendingLast ∧
    ∃ t, step sendingLast = .next t := ⟨⟨stateB_wireSound, _, rfl⟩, sendingLast_wireSound, _, rfl⟩

theorem witness_StepKeepsTheRecordsSound : (RecordsSound (command stateB 0x40000003 0) ∧ ∃ t, step (command stateB 0x40000003 0) = .next t) ∧
    RecordsSound haltedB :=
  ⟨⟨⟨by decide, by decide, by decide⟩, _, rfl⟩, by decide, by decide, by decide⟩

/-- A step that is not a copy step of SYNC_DOWN, a mirror access during one, and a copy step by an explicit turn: offset 5 is no prefix
byte, offset 4 is one. -/
theorem witness_PrefixBitsAreKept :
    (prefixesSound (command stateB 0x90000001 0) ∧ ¬copyingDown (command stateB 0x90000001 0) ∧
      ∃ t, step (command stateB 0x90000001 0) = .next t) ∧
    (prefixesSound (syncingLast .down) ∧ ¬copyingDown { syncingLast .down with inputs := [.mirrorWrite 0 1] }) ∧
    sequencerMoves { syncingLast .down with inputs := [.turn, .mirrorRead 0] } [.mirrorRead 0] ∧
    (syncingLast .down).phase = .syncing .down [5] ∧ (∃ t, step { syncingLast .down with inputs := [.turn, .mirrorRead 0] } = .next t) ∧
    ∃ t, step { syncingLast .down with phase := .syncing .down [4] } = .next t :=
  ⟨⟨by unfold prefixesSound; decide, not_copyingDown _ (fun _ e => nomatch e), _, rfl⟩,
    ⟨by unfold prefixesSound; decide, fun ⟨⟨_, h⟩, _⟩ => h.elim (fun h => nomatch h.1) (fun h => nomatch h)⟩, .inr rfl, rfl, ⟨_, rfl⟩, _, rfl⟩

/-- The sample indices of the first and the last bit of a frame's whole bytes. -/
theorem witness_RisingEdgesCarryTheFrameBits : (⟨[0x80, 0x01], [true]⟩ : Frame).bytes[1]? = some 0x01 ∧ 7 < 8 ∧
    (samples false (⟨[0x80, 0x01], [true]⟩ : Frame).wave)[8 * 0 + 0]? = some true ∧
    (samples false (⟨[0x80, 0x01], [true]⟩ : Frame).wave)[8 * 1 + 0]? = some false := by decide

theorem witness_RecordsOnlyGrow : ∃ t, step (command haltedB 0 0) = .next t := ⟨_, rfl⟩

theorem witness_SoundStatesNeverStop : ConfigSound (command stateB 0xA0000000 0) ∧ WireSound (command stateB 0xA0000000 0) :=
  ⟨clearB_configSound, wireSound_of_idle _ rfl (fun _ h => nomatch h)⟩

/-- A command just accepted, and IDLE. -/
theorem witness_EveryCommandEnds :
    (ConfigSound (command stateB 0xA0000000 0) ∧ WireSound (command stateB 0xA0000000 0) ∧ (command stateB 0xA0000000 0).inputs = []) ∧
    ConfigSound stateB ∧ WireSound stateB ∧ stateB.inputs = [] :=
  ⟨⟨clearB_configSound, wireSound_of_idle _ rfl (fun _ h => nomatch h), rfl⟩, stateB_configSound, stateB_wireSound, rfl⟩

end Sys2Proof.Tests
end

section
/-! What one step can do, as two inductive relations: one constructor per kind of move of the sequencer (41_lifecycle.md R133) and one per
kind of access of the agents outside (20_memory.md R78).  The invariants below are each a case analysis over these moves. -/

namespace Sys2Proof.StateProofs

open Sys2Proof.Machine Sys2Proof.Safety Sys2Proof.Laws

/-! ### Offsets and PREFIX bits -/

theorem bufferLength_eq (n : Nat) : bufferLength n = 4 * n := rfl

theorem channelOffset_eq (i k : Nat) : channelOffset i k = 4 * i + k := rfl

/-- The offset of a PREFIX byte (10_state.md R41). -/
theorem prefixOffset_eq (i : Nat) : channelOffset i chPrefix = 4 * i := rfl

theorem indexInRange_iff (s : State) (idx : Int) : s.indexInRange idx = true ↔ 0 ≤ idx ∧ idx < s.n := by
  simp [State.indexInRange]

/-- Every PREFIX byte that the quantizer gives has its top three bits 111 (40_encoder.md R113). -/
theorem prefixByte_top (b : Nat) : prefixByte b &&& 0xE0 = 0xE0 := by
  have top : ∀ x : Byte, ((x &&& 0x1F) ||| 0xE0) &&& 0xE0 = 0xE0 := by decide
  exact top _

/-! ### What a command's first step may make of FB -/

/-- `fb` is a frame buffer that a command may leave in place of the one of `s`: each property of FB that the invariants ask for carries
over to it. -/
structure EditsFb (s : State) (fb : Memory) : Prop where
  canonical : Memory.wf s.fb → Memory.wf fb
  within : Memory.within s.fb (bufferLength s.n) → Memory.within fb (bufferLength s.n)
  prefixes : prefixesSound s → ∀ i, i < s.n → Memory.read fb (4 * i) &&& 0xE0 = 0xE0

theorem EditsFb.trans {s : State} {fb fb' : Memory} (h : EditsFb s fb) (h' : EditsFb { s with fb := fb } fb') : EditsFb s fb' where
  canonical hs := h'.canonical (h.canonical hs)
  within hs := h'.within (h.within hs)
  prefixes hs := h'.prefixes (h.prefixes hs)

/-- A byte below 4N may be written if it has the PREFIX bits wherever it is a PREFIX byte. -/
theorem editsFb_write {s : State} {j : Nat} {v : Byte} (hj : j < bufferLength s.n)
    (hv : ∀ i, i < s.n → j = 4 * i → v &&& 0xE0 = 0xE0) : EditsFb s (Memory.write s.fb j v) where
  canonical := wf_write s.fb j v
  within hs := within_write s.fb j _ v hs hj
  prefixes hs i hi := by
    rw [read_write]
    split
    · rename_i e; exact hv i hi e.symm
    · exact hs i hi

/-- SET_PIXEL's three writes touch no PREFIX byte (42_pixel.md R150). -/
theorem editsFb_writeColour {s : State} {i : Nat} (hi : i < s.n) (red green blue : Byte) :
    EditsFb s (writeColour i red green blue s).fb := by
  have colour : ∀ (u : State) (k : Nat) (v : Byte), u.n = s.n → 1 ≤ k → k < 4 →
      EditsFb u (Memory.write u.fb (channelOffset i k) v) := fun u k v hn h1 h4 =>
    editsFb_write (by rw [bufferLength_eq, channelOffset_eq, hn]; omega) (fun a _ e => by rw [channelOffset_eq] at e; omega)
  exact ((colour s chBlue blue rfl (by decide) (by decide)).trans
    (colour _ chGreen green rfl (by decide) (by decide))).trans (colour _ chRed red rfl (by decide) (by decide))

/-- SET_BRIGHTNESS writes a PREFIX byte that has its top bits (42_pixel.md R158). -/
theorem editsFb_writePrefix {s : State} {i : Nat} (hi : i < s.n) (bri : Nat) :
    EditsFb s (Memory.write s.fb (channelOffset i chPrefix) (prefixByte bri)) :=
  editsFb_write (by rw [bufferLength_eq, prefixOffset_eq]; omega) (fun _ _ _ => prefixByte_top bri)

/-- ROTATE moves whole pixel records, so each PREFIX byte comes from a PREFIX byte (45_buffer_ops.md R221). -/
theorem editsFb_rotated (s : State) (pos : Int) : EditsFb s (rotatedFb s.fb s.n (rotateCutoff pos s.n)) where
  canonical _ := wf_tabulate _ _
  within _ := within_tabulate _ _
  prefixes hs i hi := by
    have source : (4 * i + 4 * euclidMod pos s.n) % (4 * s.n) = 4 * ((i + euclidMod pos s.n) % s.n) := by
      rw [← Nat.mul_add, Nat.mul_mod_mul_left]
    have cutoff : rotateCutoff pos s.n = 4 * euclidMod pos s.n := rfl
    rw [rotatedFb, read_tabulate, bufferLength_eq, if_pos (by omega), cutoff, source]
    exact hs _ (Nat.mod_lt _ (by omega))

/-- CLEAR keeps every PREFIX byte (45_buffer_ops.md R227). -/
theorem editsFb_cleared (s : State) : EditsFb s (clearedFb s.fb s.n) where
  canonical _ := wf_tabulate _ _
  within _ := within_tabulate _ _
  prefixes hs i hi := by
    have isPrefix : 4 * i % Config.bytesPerPixel = chPrefix := Nat.mul_mod_right 4 i
    rw [clearedFb, read_tabulate, bufferLength_eq, if_pos (by omega), if_pos isPrefix]
    exact hs i hi

/-! ### The moves of the sequencer -/

/-- A move of the sequencer from `s`: what its step can leave, and when. -/
inductive SequencerMove (s : State) : State → Prop
  /-- No command: nothing to do (70_reset_and_hazards.md R273). -/
  | rests (hp : s.phase = .idle) : SequencerMove s s
  /-- A command completes and touches nothing but STATUS and RDATA. -/
  | completes (rdata : Option Word) (hp : s.phase = .accepted) : SequencerMove s (complete rdata s)
  /-- A command fails, not fatally (60_exceptions.md R254). -/
  | fails (c : Cause) (info : Option Int) (hp : s.phase = .accepted) (hc : c ≠ .none) : SequencerMove s (raise c false info s)
  /-- SET_PIXEL, SET_BRIGHTNESS, ROTATE and CLEAR change FB and complete. -/
  | edits (fb : Memory) (hp : s.phase = .accepted) (hi : s.status.init = true) (hf : EditsFb s fb) :
      SequencerMove s (complete none { s with fb := fb })
  /-- CLOSE (41_lifecycle.md R140). -/
  | closes (hp : s.phase = .accepted) : SequencerMove s (complete none (releaseTransport s))
  /-- INIT fails (41_lifecycle.md R141). -/
  | failsInit (c : Cause) (info : Int) (hp : s.phase = .accepted) (hc : c ≠ .none) :
      SequencerMove s (failInit c info (releaseTransport s))
  /-- INIT succeeds (41_lifecycle.md R137, R138). -/
  | constructs (nleds ibri port : Nat) (clk : Word) (hp : s.phase = .accepted) (hh : s.status.halt = false)
      (hn : nleds ≤ Config.maxLeds) (hport : port < Config.numPorts) (hclk : clk ≠ 0) :
      SequencerMove s (complete none (construct nleds ibri port clk (releaseTransport s)))
  /-- SHOW begins a frame (43_serializer.md R176). -/
  | selects (hp : s.phase = .accepted) (ho : s.status.opened = true) :
      SequencerMove s ((s.modifyPort s.portcfg Port.select).enter (.showing 0))
  /-- SHOW with OPEN = 0 (43_serializer.md R172). -/
  | failsShow (hp : s.phase = .accepted) (hi : s.status.init = true) : SequencerMove s (raise .transport true (portInfo s) s)
  /-- SYNC begins with every offset left (44_mirror.md R201). -/
  | startsCopy (dir : Direction) (hp : s.phase = .accepted) (hh : s.status.halt = false) (hi : s.status.init = true) (hn : s.n ≠ 0) :
      SequencerMove s (s.enter (.syncing dir (List.range (bufferLength s.n))))
  /-- PORT_FAULT cuts a frame off (43_serializer.md R186). -/
  | cutsOff (k : Nat) (hp : s.phase = .showing k) : SequencerMove s (transportFail k s)
  /-- The last byte of a frame (43_serializer.md R176). -/
  | sendsLast (k : Nat) (hp : s.phase = .showing k) (hk : k + 1 = frameLength s.n) :
      SequencerMove s (complete none ((sendByte k s).releasePort []))
  /-- Another byte of a frame (43_serializer.md R176). -/
  | sends (k : Nat) (hp : s.phase = .showing k) (hk : k + 1 < frameLength s.n) :
      SequencerMove s ((sendByte k s).enter (.showing (k + 1)))
  /-- A copy step (44_mirror.md R201). -/
  | copies (dir : Direction) (rest : List Nat) (hp : s.phase = .syncing dir rest) (hr : rest ≠ []) :
      SequencerMove s (copyStep dir rest (syncPick rest s.draws) s.drawn)

/-- The body of INIT is one of its failures or its success. -/
theorem initBody_move {s : State} (nleds ibri port : Nat) (clk : Word) (hp : s.phase = .accepted) (hh : s.status.halt = false) :
    SequencerMove s (initBody nleds ibri port clk s) := by
  simp only [initBody]
  by_cases hn : nleds > Config.maxLeds
  · rw [if_pos hn]; exact .failsInit _ _ hp (by decide)
  rw [if_neg hn]
  by_cases hopen : openFails port clk (releaseTransport s) = true
  · rw [if_pos hopen]; exact .failsInit _ _ hp (by decide)
  rw [if_neg hopen]
  by_cases hbri : ibri > Config.briMax
  · rw [if_pos hbri]; exact .failsInit _ _ hp (by decide)
  rw [if_neg hbri]
  rw [openFails_iff] at hopen
  push Not at hopen
  obtain ⟨hport, hclk, _⟩ := hopen
  exact .constructs _ _ _ _ hp hh (Nat.le_of_not_lt hn) hport hclk

/-- The body of a SYNC command. -/
theorem startSync_move {s : State} (dir : Direction) (hp : s.phase = .accepted) (hh : s.status.halt = false)
    (hi : s.status.init = true) : SequencerMove s (startSync dir s) := by
  unfold startSync
  split
  · exact .completes none hp
  · rename_i hn; exact .startsCopy dir hp hh hi hn

/-- The body of every command is a move. -/
theorem bodyOf_move {i : Instr} {s : State} (hp : s.phase = .accepted) (hh : s.status.halt = false)
    (hi : needsInit i = true → s.status.init = true) : SequencerMove s (bodyOf i s) := by
  have inRange : ∀ {idx : Int}, s.indexInRange idx = true → idx.toNat < s.n := fun h => by
    have := (indexInRange_iff s _).mp h; omega
  cases i with
  | nop | encEndlen => all_goals exact .completes _ hp
  | init nleds ibri port clk => exact initBody_move nleds ibri port clk hp hh
  | close => exact .closes hp
  | setPixel idx red green blue =>
    simp only [bodyOf]
    split
    · rename_i h; exact .edits _ hp (hi rfl) (editsFb_writeColour (inRange h) red green blue)
    · exact .completes none hp
  | getPixel idx =>
    simp only [bodyOf]
    split
    · exact .completes _ hp
    · exact .fails _ _ hp (by decide)
  | setBrightness idx bri =>
    simp only [bodyOf]
    split
    · exact .fails _ _ hp (by decide)
    split
    · rename_i h; exact .edits _ hp (hi rfl) (editsFb_writePrefix (inRange h) bri)
    · exact .completes none hp
  | showFrame =>
    simp only [bodyOf]
    split
    · rename_i ho; exact .selects hp ho
    · exact .failsShow hp (hi rfl)
  | syncUp => exact startSync_move .up hp hh (hi rfl)
  | syncDown => exact startSync_move .down hp hh (hi rfl)
  | rotate pos =>
    simp only [bodyOf]
    split
    · exact .fails _ _ hp (by decide)
    · exact .edits _ hp (hi rfl) (editsFb_rotated s pos)
  | clear => exact .edits _ hp (hi rfl) (editsFb_cleared s)
  | encPrefix bri =>
    simp only [bodyOf]
    split
    · exact .fails _ _ hp (by decide)
    · exact .completes _ hp

/-- The refusal of an ILLEGAL word is a failure that is not fatal. -/
theorem refuseIllegal_move {s : State} (hp : s.phase = .accepted) : SequencerMove s (refuseIllegal s) := by
  unfold refuseIllegal
  split <;> exact .fails _ _ hp (by decide)

/-- The first step of a command is a move. -/
theorem exec_move {i : Instr} {s t : State} (hp : s.phase = .accepted) (h : exec i s = .next t) : SequencerMove s t := by
  rcases exec_cases h with ⟨_, rfl⟩ | ⟨_, _, _, rfl⟩ | ⟨hh, hi, rfl⟩
  · exact .fails _ _ hp (by decide)
  · exact .fails _ _ hp (by decide)
  · exact bodyOf_move hp hh hi

/-- The sequencer's step is a move. -/
theorem sequencerStep_move {s t : State} (h : sequencerStep s = .next t) : SequencerMove s t := by
  rcases sequencerStep_cases h with ⟨hp, rfl⟩ | ⟨hp, i, _, he⟩ | ⟨hp, _, rfl⟩ | ⟨k, hp, _, _, rfl⟩ | ⟨k, hp, hk, _, rfl⟩ |
    ⟨k, hp, hk, _, rfl⟩ | ⟨dir, rest, hp, hr, rfl⟩
  · exact .rests hp
  · exact exec_move hp he
  · exact refuseIllegal_move hp
  · exact .cutsOff k hp
  · exact .sendsLast k hp hk
  · exact .sends k hp hk
  · exact .copies dir rest hp hr

/-! ### The moves of the agents outside -/

/-- A move of the host, the mirror agent or the platform from `s`: what it can leave. -/
inductive AgentMove (s : State) : State → Prop
  /-- A host access is answered and changes nothing else. -/
  | answersHost (a : HostAnswer) (ha : a ≠ .busError) : AgentMove s (s.answerHost a)
  /-- A host access is refused (20_memory.md R63). -/
  | refusesHost : AgentMove s (refuseHost s)
  /-- A CMD write is dropped (41_lifecycle.md R131). -/
  | overruns (hb : s.busy = true) : AgentMove s (State.answerHost { s with status := s.status.overrun } .written)
  /-- A CMD write is accepted (41_lifecycle.md R130). -/
  | accepts (v : Word) (hb : s.phase = .idle) : AgentMove s ((accept v s).answerHost .written)
  /-- A write of ARG (10_state.md R23). -/
  | writesArg (v : Word) : AgentMove s (State.answerHost { s with arg := v } .written)
  /-- A write of STATUS (10_state.md R24, R30). -/
  | clearsFlags (v : Word) : AgentMove s (State.answerHost { s with status := s.status.clearW1C v } .written)
  /-- A mirror read (44_mirror.md R211). -/
  | readsMirror (v : Byte) : AgentMove s (s.answerMirror (.data v))
  /-- A mirror access is refused (44_mirror.md R212). -/
  | refusesMirror : AgentMove s (refuseMirror s)
  /-- A mirror write (44_mirror.md R211, R212). -/
  | writesMirror (j : Nat) (v : Byte) (hi : s.status.init = true) (hj : j < bufferLength s.n) :
      AgentMove s ((s.writeMb j v).answerMirror .written)
  /-- The platform drives a PORT_FAULT level (43_serializer.md R186). -/
  | drivesFault (p : PortIndex) (level : Bool) : AgentMove s (drivePortFault p level s)

theorem phase_idle_of_not_busy {s : State} (h : s.busy = false) : s.phase = .idle := by simpa [State.busy] using h

theorem hostWrite_move (off n : Nat) (v : Word) (s : State) : AgentMove s (hostWrite off n v s) := by
  rcases hostWrite_cases off n v s with e | ⟨hb, e⟩ | ⟨hb, e⟩ | e | e | e <;> rw [e]
  · exact .refusesHost
  · exact .overruns hb
  · exact .accepts v (phase_idle_of_not_busy hb)
  · exact .writesArg v
  · exact .clearsFlags v
  · exact .answersHost _ (by decide)

/-- The step of an input that is not the sequencer's turn is a move of an agent. -/
theorem inputStep_move {i : Input} {s t : State} (hi : i ≠ .turn) (h : inputStep i s = .next t) : AgentMove s t := by
  rcases inputStep_cases hi h with ⟨off, n, _, rfl⟩ | ⟨off, n, v, _, rfl⟩ | ⟨a, _, rfl⟩ | ⟨a, d, _, rfl⟩ | ⟨p, l, _, rfl⟩
  · rcases hostRead_cases off n s with e | ⟨r, e⟩ <;> rw [e]
    · exact .refusesHost
    · exact .answersHost _ (by simp)
  · exact hostWrite_move off n v s
  · rcases mirrorRead_cases a s with e | e <;> rw [e]
    · exact .refusesMirror
    · exact .readsMirror _
  · rcases mirrorWrite_cases a d s with e | ⟨hin, hj, e⟩ <;> rw [e]
    · exact .refusesMirror
    · exact .writesMirror _ _ hin hj
  · exact .drivesFault p l

/-! ### The moves of a step -/

/-- The sequencer moves next, or an input of another agent is pending first. -/
theorem step_source (s : State) : (∃ rest, sequencerMoves s rest) ∨ ∃ i rest, i ≠ .turn ∧ s.inputs = i :: rest := by
  cases hin : s.inputs with
  | nil => exact .inl ⟨[], .inl ⟨hin, rfl⟩⟩
  | cons i rest =>
    by_cases hi : i = .turn
    · exact .inl ⟨rest, .inr (hi ▸ hin)⟩
    · exact .inr ⟨i, rest, hi, rfl⟩

/-- The step of a pending input. -/
theorem step_input {s : State} {i : Input} {rest : List Input} (h : s.inputs = i :: rest) :
    step s = inputStep i { s with inputs := rest } := by
  unfold step
  rw [h]

/-- The step of the sequencer, with its explicit turn taken off the pending inputs. -/
theorem step_sequencer {s : State} {rest : List Input} (h : sequencerMoves s rest) :
    step s = sequencerStep { s with inputs := rest } := by
  rcases h with ⟨hin, rfl⟩ | hin
  · simp only [step, hin]
    rw [← hin]
  · exact step_input hin

/-- Every step takes at most one pending input and is then a move of the sequencer or of an agent. -/
theorem step_move {s t : State} (h : step s = .next t) :
    ∃ rest, (sequencerMoves s rest ∧ SequencerMove { s with inputs := rest } t) ∨ AgentMove { s with inputs := rest } t := by
  rcases step_source s with ⟨rest, hq⟩ | ⟨i, rest, hi, hin⟩
  · rw [step_sequencer hq] at h
    exact ⟨rest, .inl ⟨hq, sequencerStep_move h⟩⟩
  · rw [step_input hin] at h
    exact ⟨rest, .inr (inputStep_move hi h)⟩

/-- An invariant that does not read the pending inputs, and that every move keeps, is kept by every step. -/
theorem step_keeps {P : State → Prop} (pending : ∀ s rest, P s → P { s with inputs := rest })
    (sequencer : ∀ s t, SequencerMove s t → P s → P t) (agent : ∀ s t, AgentMove s t → P s → P t)
    {s t : State} (hs : P s) (h : step s = .next t) : P t := by
  obtain ⟨rest, ⟨_, hm⟩ | hm⟩ := step_move h
  · exact sequencer _ t hm (pending s rest hs)
  · exact agent _ t hm (pending s rest hs)

end Sys2Proof.StateProofs
end

section
/-! What FB and MB hold: the canonical form (log entry 8), the configuration (10_state.md R33 to R44) and the records (R29, R263). -/

namespace Sys2Proof.StateProofs

open Sys2Proof.Machine Sys2Proof.Safety Sys2Proof.Laws

/-! ### The state after a release of the transport, and after a copy step -/

/-- The release of the transport changes the ports, clears OPEN and does nothing else (41_lifecycle.md R139, R140). -/
theorem releaseTransport_eq_with (s : State) : releaseTransport s =
    { s with ports := (releaseTransport s).ports, status := { s.status with opened := false } } := by
  rw [← releaseTransport_status, releaseTransport_eq]
  split <;> rfl

/-- A copy step, by whether an offset is left after it (44_mirror.md R201). -/
theorem copyStep_eq (dir : Direction) (rest : List Nat) (j : Nat) (s : State) :
    copyStep dir rest j s =
      if rest.filter (fun i => i != j) = [] then complete none (copyByte dir j s)
      else (copyByte dir j s).enter (.syncing dir (rest.filter fun i => i != j)) := rfl

/-! ### The canonical form -/

theorem copyByte_canonical (dir : Direction) (j : Nat) {s : State} (h : buffersCanonical s) : buffersCanonical (copyByte dir j s) := by
  obtain ⟨hfb, hmb⟩ := h
  cases dir with
  | up => exact ⟨hfb, wf_write _ _ _ hmb⟩
  | down => exact ⟨wf_write _ _ _ hfb, hmb⟩

theorem sequencerMove_keeps_canonical {s t : State} (hm : SequencerMove s t) (h : buffersCanonical s) : buffersCanonical t := by
  obtain ⟨hfb, hmb⟩ := h
  cases hm with
  | edits fb _ _ hf => exact ⟨hf.canonical hfb, hmb⟩
  | constructs => exact ⟨wf_tabulate _ _, wf_tabulate _ _⟩
  | closes | failsInit => all_goals rw [releaseTransport_eq_with]; exact ⟨hfb, hmb⟩
  | copies dir rest =>
    have copied := copyByte_canonical dir (syncPick rest s.draws) (s := s.drawn) ⟨hfb, hmb⟩
    rw [copyStep_eq]
    split <;> exact copied
  | _ => exact ⟨hfb, hmb⟩

theorem agentMove_keeps_canonical {s t : State} (hm : AgentMove s t) (h : buffersCanonical s) : buffersCanonical t := by
  obtain ⟨hfb, hmb⟩ := h
  cases hm with
  | writesMirror j v => exact ⟨hfb, wf_write _ _ _ hmb⟩
  | _ => exact ⟨hfb, hmb⟩

/-- Settles O52, a case analysis over the moves of a step. -/
theorem stepKeepsBuffersCanonical : Obligations.StepKeepsBuffersCanonical := by
  intro s t hs h
  exact step_keeps (fun _ _ => id) (fun _ _ => sequencerMove_keeps_canonical) (fun _ _ => agentMove_keeps_canonical) hs h

/-! ### The configuration -/

/-- What a copy step does to the configuration: FB and MB stay below 4N, and the offsets left stay in order. -/
theorem copyStep_keeps_config {dir : Direction} {rest : List Nat} {j : Nat} {s : State} (h : ConfigSound s)
    (hp : s.phase = .syncing dir rest) (hj : j ∈ rest) : ConfigSound (copyStep dir rest j s) := by
  obtain ⟨hi, hh, _, hsorted, hbound⟩ := h.syncing dir rest hp
  have copied : Memory.within (copyByte dir j s).fb (bufferLength s.n) ∧ Memory.within (copyByte dir j s).mb (bufferLength s.n) := by
    cases dir with
    | up => exact ⟨h.fbLength hi, within_write _ _ _ _ (h.mbLength hi) (hbound j hj)⟩
    | down => exact ⟨within_write _ _ _ _ (h.fbLength hi) (hbound j hj), h.mbLength hi⟩
  have same : copyByte dir j s = { s with fb := (copyByte dir j s).fb, mb := (copyByte dir j s).mb } := by cases dir <;> rfl
  rw [copyStep_eq, same]
  split
  · exact { h with fbLength := fun _ => copied.1, mbLength := fun _ => copied.2, syncing := nofun }
  · rename_i hleft
    refine { h with fbLength := fun _ => copied.1, mbLength := fun _ => copied.2, syncing := ?_ }
    rintro d r ⟨⟩
    exact ⟨hi, hh, hleft, hsorted.filter _, fun i hin => hbound i (List.mem_filter.mp hin).1⟩

/-- A failed INIT leaves no configuration (41_lifecycle.md R141). -/
theorem failInit_config (c : Cause) (info : Int) (s : State) : ConfigSound (failInit c info s) where
  count := Nat.zero_le _
  openInit := nofun
  haltClosed _ := rfl
  unbuilt _ := ⟨rfl, rfl, rfl⟩
  portExists := Nat.succ_pos _
  clock := nofun
  fbLength := nofun
  mbLength := nofun
  syncing := nofun

/-- A successful INIT makes a sound configuration (41_lifecycle.md R137, R138). -/
theorem construct_config {nleds port : Nat} {clk : Word} (ibri : Nat) {s : State} (hh : s.status.halt = false)
    (hn : nleds ≤ Config.maxLeds) (hport : port < Config.numPorts) (hclk : clk ≠ 0) :
    ConfigSound (complete none (construct nleds ibri port clk s)) := by
  have count : (BitVec.ofNat 11 nleds).toNat = nleds := by
    rw [BitVec.toNat_ofNat, Nat.mod_eq_of_lt]
    exact Nat.lt_of_le_of_lt hn (by decide)
  have within : ∀ f, Memory.within (Memory.tabulate (bufferLength nleds) f) (bufferLength (BitVec.ofNat 11 nleds).toNat) := by
    rw [count]; exact within_tabulate _
  exact {
    count := by rw [← count] at hn; exact hn
    openInit := fun _ => rfl
    haltClosed := fun e => absurd (hh.symm.trans e) (by decide)
    unbuilt := nofun
    portExists := Nat.lt_of_le_of_lt (Nat.mod_le _ _) hport
    clock := fun _ => hclk
    fbLength := fun _ => within _
    mbLength := fun _ => within _
    syncing := nofun }

theorem sequencerMove_keeps_config {s t : State} (hm : SequencerMove s t) (h : ConfigSound s) : ConfigSound t := by
  cases hm with
  | rests => exact h
  | completes | fails | selects | sendsLast | sends => all_goals exact { h with syncing := nofun }
  | edits fb _ _ hf => exact { h with fbLength := fun hi => hf.within (h.fbLength hi), syncing := nofun }
  | closes => rw [releaseTransport_eq_with]; exact { h with openInit := nofun, haltClosed := fun _ => rfl, syncing := nofun }
  | failsInit c info => exact failInit_config c info _
  | constructs nleds ibri port clk _ hh hn hport hclk =>
    exact construct_config ibri (by rw [releaseTransport_status]; exact hh) hn hport hclk
  | failsShow | cutsOff => all_goals exact { h with openInit := nofun, haltClosed := fun _ => rfl, syncing := nofun }
  | startsCopy dir _ hh hi hn =>
    refine { h with syncing := ?_ }
    rintro d r ⟨⟩
    have hne : bufferLength s.n ≠ 0 := by rw [bufferLength_eq]; omega
    exact ⟨hi, hh, by simpa using hne, List.pairwise_lt_range, fun j hj => List.mem_range.mp hj⟩
  | copies dir rest hp hr => exact copyStep_keeps_config (s := s.drawn) { h with } hp (syncPick_mem rest _ hr)

theorem agentMove_keeps_config {s t : State} (hm : AgentMove s t) (h : ConfigSound s) : ConfigSound t := by
  cases hm with
  | accepts => exact { h with syncing := nofun }
  | writesMirror j v hi hj => exact { h with mbLength := fun _ => within_write _ _ _ _ (h.mbLength hi) hj }
  | _ => exact { h with }

/-- Settles O53, a case analysis over the moves of a step. -/
theorem stepKeepsTheConfigurationSound : Obligations.StepKeepsTheConfigurationSound := by
  intro s t hs h
  exact step_keeps (fun _ _ h => { h with }) (fun _ _ => sequencerMove_keeps_config) (fun _ _ => agentMove_keeps_config) hs h

/-! ### The records -/

/-- A success clears ERR and CAUSE and logs nothing. -/
theorem complete_keeps_records (rdata : Option Word) {s : State} (h : RecordsSound s) : RecordsSound (complete rdata s) where
  errCause := by simp
  logged e := h.logged (.inr (e.resolve_left nofun))
  marked := h.marked

/-- A failure sets ERR with a cause and logs it, whatever the records were. -/
theorem raise_keeps_records {c : Cause} (fatal : Bool) (info : Option Int) {s : State} (hc : c ≠ .none)
    (h : (s.hostAnswer = .busError ∨ s.mirrorAnswer = .refused) → s.refusalMark = true) : RecordsSound (raise c fatal info s) where
  errCause := by simp [hc]
  logged _ := by simp
  marked := by simpa using h

theorem copyStep_keeps_records (dir : Direction) (rest : List Nat) (j : Nat) {s : State} (h : RecordsSound s) :
    RecordsSound (copyStep dir rest j s) := by
  have copied : RecordsSound (copyByte dir j s) := by cases dir <;> exact { h with }
  rw [copyStep_eq]
  split
  · exact complete_keeps_records none copied
  · exact { copied with }

theorem sequencerMove_keeps_records {s t : State} (hm : SequencerMove s t) (h : RecordsSound s) : RecordsSound t := by
  cases hm with
  | rests => exact h
  | completes rdata => exact complete_keeps_records rdata h
  | fails c info _ hc => exact raise_keeps_records false info hc h.marked
  | edits fb => exact complete_keeps_records none (s := { s with fb := fb }) { h with }
  | closes => rw [releaseTransport_eq_with]; exact complete_keeps_records none { h with }
  | failsInit c info _ hc => rw [releaseTransport_eq_with]; exact raise_keeps_records true _ hc h.marked
  | constructs => rw [releaseTransport_eq_with]; exact complete_keeps_records none { h with }
  | failsShow => exact raise_keeps_records true _ (by decide) h.marked
  | cutsOff k => exact raise_keeps_records true _ (by decide) h.marked
  | sendsLast k => exact complete_keeps_records none (s := (sendByte k s).releasePort []) { h with }
  | selects | startsCopy | sends => all_goals exact { h with }
  | copies dir rest => exact copyStep_keeps_records dir rest _ (s := s.drawn) { h with }

theorem agentMove_keeps_records {s t : State} (hm : AgentMove s t) (h : RecordsSound s) : RecordsSound t := by
  cases hm with
  | refusesHost | refusesMirror => all_goals exact { h with marked := fun _ => rfl }
  | answersHost a ha => exact { h with marked := fun e => h.marked (.inr (e.resolve_left ha)) }
  | overruns | accepts | writesArg => all_goals exact { h with marked := fun e => h.marked (.inr (e.resolve_left nofun)) }
  | clearsFlags v =>
    exact { h with
      logged := fun e => h.logged (e.imp_right (Or.imp_left (fun a => (Bool.and_eq_true_iff.mp a).1)))
      marked := fun e => h.marked (.inr (e.resolve_left nofun)) }
  | readsMirror | writesMirror => all_goals exact { h with marked := fun e => h.marked (.inl (e.resolve_right nofun)) }
  | drivesFault => exact { h with }

/-- Settles O55, a case analysis over the moves of a step. -/
theorem stepKeepsTheRecordsSound : Obligations.StepKeepsTheRecordsSound := by
  intro s t hs h
  exact step_keeps (fun _ _ h => { h with }) (fun _ _ => sequencerMove_keeps_records) (fun _ _ => agentMove_keeps_records) hs h

end Sys2Proof.StateProofs
end

section
/-! What the ports carry (10_state.md R46, 43_serializer.md R171, R176, R180, R182), and that a sound state never stops. -/

namespace Sys2Proof.StateProofs

open Sys2Proof.Machine Sys2Proof.Safety Sys2Proof.Laws

/-! ### The bytes of a frame -/

theorem frame_length (fb : Memory) (n : Nat) : (frame fb n).length = frameLength n := by
  simp [frame, startFrame, endFrame, bytes_length, frameLength, endLength, bufferLength_eq]; omega

/-- Byte k of the frame is FRAMEBYTE(k) (43_serializer.md R177). -/
theorem frame_getElem (s : State) (k : Nat) (h : k < (frame s.fb s.n).length) : (frame s.fb s.n)[k] = s.frameByte k := by
  have start : ∀ j (hj : j < startFrame.length), startFrame[j] = 0 := by decide
  have startLength : startFrame.length = 4 := rfl
  have pixels : (startFrame ++ Memory.bytes s.fb (bufferLength s.n)).length = 4 + bufferLength s.n := by
    rw [List.length_append, bytes_length, startLength]
  unfold State.frameByte
  by_cases h4 : k < 4
  · rw [if_pos h4]
    simp only [frame]
    rw [List.getElem_append_left (by omega), List.getElem_append_left (by omega)]
    exact start k h4
  · rw [if_neg h4]
    split
    · simp only [frame]
      rw [List.getElem_append_left (by omega), List.getElem_append_right (by omega), bytes_getElem, startLength]
      rfl
    · simp only [frame]
      rw [List.getElem_append_right (by omega)]
      exact List.getElem_replicate _

/-- Sending byte k makes the first k bytes of the frame the first k + 1. -/
theorem frame_take_succ (s : State) (k : Nat) (h : k < frameLength s.n) :
    (frame s.fb s.n).take k ++ [s.frameByte k] = (frame s.fb s.n).take (k + 1) := by
  have hk : k < (frame s.fb s.n).length := by rw [frame_length]; exact h
  rw [← frame_getElem s k hk, List.take_append_getElem hk]

/-! ### Idle ports -/

/-- Every port is idle. -/
def allIdle (s : State) : Prop := ∀ p, portIdle (s.port p)

/-- With every port idle and no frame being sent the ports are sound. -/
theorem wireSound_of_allIdle {s : State} (h : allIdle s) (hp : ∀ k, s.phase ≠ .showing k) : WireSound s where
  others p _ := h p
  sending k e := absurd e (hp k)

theorem allIdle_of_notShowing {s : State} (h : WireSound s) (hp : ∀ k, s.phase ≠ .showing k) : allIdle s :=
  fun p => h.others p (.inr hp)

/-- In phase ACCEPTED every port is idle. -/
theorem allIdle_of_accepted {s : State} (h : WireSound s) (hp : s.phase = .accepted) : allIdle s :=
  allIdle_of_notShowing h fun _ e => nomatch hp.symm.trans e

/-- A release of the selected port leaves every port idle if the others are. -/
theorem allIdle_releasePort {s : State} (cut : List Bool) (h : ∀ p, p ≠ s.portcfg → portIdle (s.port p)) :
    allIdle (s.releasePort cut) := fun p => by
  rw [port_releasePort]
  split
  · exact ⟨release_levels _ _, release_live _ _⟩
  · rename_i hp; exact h p hp

theorem allIdle_releaseTransport {s : State} (h : allIdle s) : allIdle (releaseTransport s) := by
  unfold releaseTransport
  split
  · exact allIdle_releasePort [] fun p _ => h p
  · exact h

theorem allIdle_raise {s : State} (c : Cause) (fatal : Bool) (info : Option Int) (h : allIdle s) : allIdle (raise c fatal info s) :=
  fun p => by
    rw [port_raise]
    split
    · exact allIdle_releasePort [] (fun p _ => h p) p
    · exact h p

theorem allIdle_failInit {s : State} (c : Cause) (info : Int) (h : allIdle s) : allIdle (failInit c info s) :=
  allIdle_raise c true (some info) h

/-! ### A frame being sent -/

/-- SHOW's first step: the selected port leaves idle with nothing sent (43_serializer.md R176). -/
theorem select_wireSound {s : State} (h : allIdle s) (ho : s.status.opened = true) :
    WireSound ((s.modifyPort s.portcfg Port.select).enter (.showing 0)) where
  others p hp := by
    have hne : p ≠ s.portcfg := hp.resolve_right fun e => e 0 rfl
    rw [port_enter, port_modifyPort_other _ _ _ _ hne]
    exact h p
  sending k e := by
    cases e
    have low : (s.port s.portcfg).levels.sclk = false := by rw [(h s.portcfg).1]; rfl
    simp only [enter_portcfg, modifyPort_portcfg, port_enter, port_modifyPort_same]
    exact ⟨by simp [frameLength], ho, rfl, low, rfl⟩

/-- A serializer step that is not the last: the frame in progress grows by FRAMEBYTE(k) (43_serializer.md R176). -/
theorem sendByte_wireSound {s : State} {k : Nat} (h : WireSound s) (hp : s.phase = .showing k) (hk : k + 1 < frameLength s.n) :
    WireSound ((sendByte k s).enter (.showing (k + 1))) where
  others p hp' := by
    have hne : p ≠ s.portcfg := hp'.resolve_right fun e => e (k + 1) rfl
    rw [port_enter, port_sendByte, if_neg hne]
    exact h.others p (.inl hne)
  sending j e := by
    cases e
    obtain ⟨hlt, ho, _, _, hlive⟩ := h.sending k hp
    have sent : ((sendByte k s).enter (.showing (k + 1))).port s.portcfg = (s.port s.portcfg).emit (s.frameByte k) := by
      rw [port_enter, port_sendByte, if_pos rfl]
    refine ⟨hk, ho, ?_⟩
    show (((sendByte k s).enter _).port s.portcfg).levels.csN = false ∧ (((sendByte k s).enter _).port s.portcfg).levels.sclk = false ∧
      (((sendByte k s).enter _).port s.portcfg).live = (frame s.fb s.n).take (k + 1)
    rw [sent, emit_eq, hlive, frame_take_succ s k hlt]
    exact ⟨rfl, rfl, rfl⟩

/-! ### The ports stay sound -/

/-- A copy step touches no port. -/
theorem copyStep_port (dir : Direction) (rest : List Nat) (j : Nat) (s : State) (p : PortIndex) :
    (copyStep dir rest j s).port p = s.port p := by
  rw [copyStep_eq]
  cases dir <;> split <;> rfl

theorem copyStep_not_showing (dir : Direction) (rest : List Nat) (j k : Nat) (s : State) :
    (copyStep dir rest j s).phase ≠ .showing k := by
  rw [copyStep_eq]
  split <;> simp

theorem sequencerMove_keeps_wire {s t : State} (hm : SequencerMove s t) (h : WireSound s) : WireSound t := by
  have others : ∀ p, p ≠ s.portcfg → portIdle (s.port p) := fun p hp => h.others p (.inl hp)
  have idle : s.phase = .accepted → allIdle s := allIdle_of_accepted h
  cases hm with
  | rests => exact h
  | completes _ hp | edits _ hp => all_goals exact wireSound_of_allIdle (idle hp) nofun
  | fails c info hp | failsShow hp => all_goals exact wireSound_of_allIdle (allIdle_raise _ _ _ (idle hp)) nofun
  | closes hp | constructs _ _ _ _ hp =>
    all_goals exact wireSound_of_allIdle (allIdle_releaseTransport (idle hp)) nofun
  | failsInit c info hp =>
    exact wireSound_of_allIdle (allIdle_failInit c info (allIdle_releaseTransport (idle hp))) nofun
  | selects hp ho => exact select_wireSound (idle hp) ho
  | startsCopy _ hp => exact wireSound_of_allIdle (idle hp) nofun
  | cutsOff k => exact wireSound_of_allIdle (allIdle_raise _ _ _ (allIdle_releasePort _ others)) nofun
  | sendsLast k hp =>
    have ended : allIdle ((sendByte k s).releasePort []) := allIdle_releasePort [] fun p hne => by
      rw [port_sendByte, if_neg (c := p = s.portcfg) hne]; exact others p hne
    exact wireSound_of_allIdle ended nofun
  | sends k hp hk => exact sendByte_wireSound h hp hk
  | copies dir rest hp =>
    have still : allIdle s := allIdle_of_notShowing h fun _ e => nomatch hp.symm.trans e
    exact wireSound_of_allIdle (fun p => by rw [copyStep_port]; exact still p) fun _ => copyStep_not_showing _ _ _ _ _

theorem agentMove_keeps_wire {s t : State} (hm : AgentMove s t) (h : WireSound s) : WireSound t := by
  cases hm with
  | accepts v hp =>
    have still : allIdle s := allIdle_of_notShowing h fun _ e => nomatch hp.symm.trans e
    exact wireSound_of_allIdle still nofun
  | _ => exact { h with }

/-- Settles O54, a case analysis over the moves of a step: a serializer step is the one that adds a byte to the frame. -/
theorem stepKeepsTheWireSound : Obligations.StepKeepsTheWireSound := by
  intro s t hs h
  exact step_keeps (fun _ _ h => { h with }) (fun _ _ => sequencerMove_keeps_wire) (fun _ _ => agentMove_keeps_wire) hs h

/-! ### Progress -/

/-- Every command's first step answers a next state. -/
theorem exec_next (i : Instr) (s : State) : ∃ t, exec i s = .next t := ⟨_, by rw [exec_eq_checked, checked_eq]⟩

theorem sequencerStep_next {s : State} (hc : ConfigSound s) (hw : WireSound s) : ∃ t, sequencerStep s = .next t := by
  unfold sequencerStep
  split
  · exact ⟨s, rfl⟩
  · unfold acceptedStep
    split
    · exact exec_next _ s
    · exact ⟨_, rfl⟩
  · rename_i k hp
    obtain ⟨hk, _⟩ := hw.sending k hp
    simp only [serializerStep, if_pos hk]
    split
    · exact ⟨_, rfl⟩
    · split <;> exact ⟨_, rfl⟩
  · rename_i dir rest hp
    obtain ⟨_, _, hr, _⟩ := hc.syncing dir rest hp
    exact ⟨_, if_neg hr⟩

/-- Settles O59: the invariants rule out the two phases in which the sequencer's step faults. -/
theorem soundStatesNeverStop : Obligations.SoundStatesNeverStop := by
  intro s hc hw
  rcases step_source s with ⟨rest, hq⟩ | ⟨i, rest, hi, hin⟩
  · rw [step_sequencer hq]
    exact sequencerStep_next { hc with } { hw with }
  · rw [step_input hin]
    exact inputStep_next i _ hi

end Sys2Proof.StateProofs
end

section
/-! The PREFIX bytes of FB (10_state.md R45), and that the contents of MB reach nothing but MB and the mirror port (R43). -/

namespace Sys2Proof.StateProofs

open Sys2Proof.Machine Sys2Proof.Safety Sys2Proof.Laws

/-! ### The PREFIX bits -/

/-- A copy step changes FB in a SYNC_DOWN only, at the offset copied. -/
theorem copyStep_fb (dir : Direction) (rest : List Nat) (j : Nat) (s : State) :
    (copyStep dir rest j s).fb = if dir = .down then Memory.write s.fb j (s.mbByte j) else s.fb := by
  rw [copyStep_eq, ← copyByte_fb]
  split <;> rfl

theorem copyStep_n (dir : Direction) (rest : List Nat) (j : Nat) (s : State) : (copyStep dir rest j s).n = s.n := by
  rw [copyStep_eq]
  cases dir <;> split <;> rfl

/-- A configuration just made has the PREFIX byte of its brightness in every pixel (41_lifecycle.md R137). -/
theorem construct_prefixes (nleds ibri port : Nat) (clk : Word) (s : State) (hn : nleds ≤ Config.maxLeds) :
    prefixesSound (complete none (construct nleds ibri port clk s)) := by
  intro i hi
  have count : (complete none (construct nleds ibri port clk s)).n = nleds :=
    Nat.mod_eq_of_lt (Nat.lt_of_le_of_lt hn (by decide))
  have isPrefix : 4 * i % Config.bytesPerPixel = chPrefix := Nat.mul_mod_right 4 i
  show Memory.read (initialFb nleds ibri) (4 * i) &&& 0xE0 = 0xE0
  rw [count] at hi
  rw [initialFb, read_tabulate, bufferLength_eq, if_pos (by omega), if_pos isPrefix]
  exact prefixByte_top ibri

/-- Every move of the sequencer but a copy step of SYNC_DOWN keeps the PREFIX bits. -/
theorem sequencerMove_keeps_prefixes {s t : State} (hm : SequencerMove s t) (hd : ∀ rest, s.phase ≠ .syncing .down rest)
    (h : prefixesSound s) : prefixesSound t := by
  cases hm with
  | edits fb _ _ hf => exact hf.prefixes h
  | closes => rw [releaseTransport_eq_with]; exact h
  | failsInit => exact fun i hi => absurd hi (Nat.not_lt_zero i)
  | constructs nleds ibri port clk _ _ hn => exact construct_prefixes nleds ibri port clk _ hn
  | copies dir rest hp =>
    cases dir with
    | down => exact absurd hp (hd rest)
    | up =>
      intro i hi
      rw [copyStep_n] at hi
      rw [State.fbByte, copyStep_fb]
      exact h i hi
  | _ => exact h

theorem agentMove_keeps_prefixes {s t : State} (hm : AgentMove s t) (h : prefixesSound s) : prefixesSound t := by
  cases hm <;> exact h

/-- After a copy of byte j in a SYNC_DOWN the PREFIX bits are kept exactly when byte j has them, if it is a PREFIX byte. -/
theorem copyStep_down_prefixes {s : State} (rest : List Nat) (j : Nat) (h : prefixesSound s) :
    prefixesSound (copyStep .down rest j s) ↔ ∀ i, i < s.n → j = 4 * i → s.mbByte (4 * i) &&& 0xE0 = 0xE0 := by
  have copied : ∀ i, (copyStep .down rest j s).fbByte (4 * i) = if 4 * i = j then s.mbByte j else s.fbByte (4 * i) := fun i => by
    rw [State.fbByte, copyStep_fb, if_pos rfl, read_write]
    rfl
  unfold prefixesSound
  simp only [copyStep_n, prefixOffset_eq, copied]
  constructor
  · rintro kept i hi rfl
    simpa using kept i hi
  · intro top i hi
    split
    · rename_i e; subst e; exact top i hi rfl
    · exact h i hi

/-- Settles O57, by the moves of a step: only a SYNC_DOWN takes a byte of FB from outside. -/
theorem prefixBitsAreKept : Obligations.PrefixBitsAreKept := by
  constructor
  · intro s t hs hd h
    obtain ⟨rest, ⟨hq, hm⟩ | hm⟩ := step_move h
    · exact sequencerMove_keeps_prefixes hm (fun left hp => hd ⟨⟨rest, hq⟩, left, hp⟩) hs
    · exact agentMove_keeps_prefixes hm hs
  · intro s t pending rest hs hq hp h
    have hstep : syncStep .down rest { s with inputs := pending } = .next t := by
      rw [step_sequencer hq] at h
      simpa only [sequencerStep, hp] using h
    by_cases hr : rest = []
    · rw [syncStep, if_pos hr] at hstep; cases hstep
    · rw [syncStep, if_neg hr] at hstep
      cases hstep
      exact ⟨syncPick_mem rest _ hr, copyStep_down_prefixes rest _ hs⟩

/-! ### Noninterference of MB -/

/-- The state with other contents of MB and another last answer of the mirror port. -/
def withMirror (s : State) (m : Memory) (a : MirrorAnswer) : State := { s with mb := m, mirrorAnswer := a }

/-- `t` and `u` differ at most in MB and in the mirror port's last answer. -/
def sameButMirror (t u : State) : Prop := ∃ m a, u = withMirror t m a

/-- A choice by a condition that does not read MB. -/
theorem sameButMirror_ite {c c' : Prop} [Decidable c] [Decidable c'] {t t' u u' : State} (hc : c' ↔ c) (ht : sameButMirror t t')
    (hu : sameButMirror u u') : sameButMirror (if c then t else u) (if c' then t' else u') := by
  by_cases h : c
  · rwa [if_pos h, if_pos (hc.mpr h)]
  · rwa [if_neg h, if_neg (mt hc.mp h)]

theorem sameButMirror_complete (rdata : Option Word) {t u : State} (h : sameButMirror t u) :
    sameButMirror (complete rdata t) (complete rdata u) := by
  obtain ⟨m, a, rfl⟩ := h
  exact ⟨m, a, rfl⟩

theorem sameButMirror_answerHost (b : HostAnswer) {t u : State} (h : sameButMirror t u) :
    sameButMirror (t.answerHost b) (u.answerHost b) := by
  obtain ⟨m, a, rfl⟩ := h
  exact ⟨m, a, rfl⟩

theorem releaseTransport_sameButMirror (s : State) (m : Memory) (a : MirrorAnswer) :
    sameButMirror (releaseTransport s) (releaseTransport (withMirror s m a)) :=
  sameButMirror_ite .rfl ⟨m, a, rfl⟩ ⟨m, a, rfl⟩

/-- The body of INIT reads nothing of MB: it replaces MB, or leaves it. -/
theorem initBody_sameButMirror (nleds ibri port : Nat) (clk : Word) (s : State) (m : Memory) (a : MirrorAnswer) :
    sameButMirror (initBody nleds ibri port clk s) (initBody nleds ibri port clk (withMirror s m a)) := by
  obtain ⟨m', a', e⟩ := releaseTransport_sameButMirror s m a
  simp only [initBody, e]
  exact sameButMirror_ite .rfl ⟨m', a', rfl⟩ (sameButMirror_ite .rfl ⟨m', a', rfl⟩
    (sameButMirror_ite .rfl ⟨m', a', rfl⟩ ⟨_, a', rfl⟩))

/-- No command's body reads MB. -/
theorem bodyOf_sameButMirror (i : Instr) (s : State) (m : Memory) (a : MirrorAnswer) :
    sameButMirror (bodyOf i s) (bodyOf i (withMirror s m a)) := by
  cases i with
  | nop | clear | encEndlen => all_goals exact ⟨m, a, rfl⟩
  | init nleds ibri port clk => exact initBody_sameButMirror nleds ibri port clk s m a
  | close => exact sameButMirror_complete none (releaseTransport_sameButMirror s m a)
  | setPixel => exact sameButMirror_complete none (sameButMirror_ite .rfl ⟨m, a, rfl⟩ ⟨m, a, rfl⟩)
  | setBrightness =>
    exact sameButMirror_ite .rfl ⟨m, a, rfl⟩ (sameButMirror_complete none (sameButMirror_ite .rfl ⟨m, a, rfl⟩ ⟨m, a, rfl⟩))
  | getPixel | showFrame | syncUp | syncDown | rotate | encPrefix =>
    all_goals exact sameButMirror_ite .rfl ⟨m, a, rfl⟩ ⟨m, a, rfl⟩

theorem exec_sameButMirror {i : Instr} {s t : State} (m : Memory) (a : MirrorAnswer) (h : exec i s = .next t) :
    ∃ u, exec i (withMirror s m a) = .next u ∧ sameButMirror t u := by
  rw [exec_eq_checked, checked_eq] at h
  cases h
  refine ⟨_, by rw [exec_eq_checked, checked_eq], ?_⟩
  exact sameButMirror_ite .rfl ⟨m, a, rfl⟩ (sameButMirror_ite .rfl ⟨m, a, rfl⟩ (bodyOf_sameButMirror i s m a))

theorem acceptedStep_sameButMirror {s t : State} (m : Memory) (a : MirrorAnswer) (h : acceptedStep s = .next t) :
    ∃ u, acceptedStep (withMirror s m a) = .next u ∧ sameButMirror t u := by
  have latched : decode (withMirror s m a).cmdL (withMirror s m a).argL = decode s.cmdL s.argL := rfl
  unfold acceptedStep at h ⊢
  rw [latched]
  cases hd : decode s.cmdL s.argL with
  | ok i =>
    rw [hd] at h
    exact exec_sameButMirror m a h
  | error e =>
    rw [hd] at h
    cases h
    exact ⟨_, rfl, sameButMirror_ite .rfl ⟨m, a, rfl⟩ ⟨m, a, rfl⟩⟩

theorem serializerStep_sameButMirror {k : Nat} {s t : State} (m : Memory) (a : MirrorAnswer) (h : serializerStep k s = .next t) :
    ∃ u, serializerStep k (withMirror s m a) = .next u ∧ sameButMirror t u := by
  unfold serializerStep at h ⊢
  by_cases hk : k < frameLength s.n
  · rw [if_pos hk] at h
    rw [if_pos (c := k < frameLength (withMirror s m a).n) hk]
    by_cases hf : s.faultAt s.portcfg.toNat = true
    · rw [if_pos hf] at h
      cases h
      exact ⟨_, if_pos hf, m, a, rfl⟩
    · rw [if_neg hf] at h
      rw [if_neg (c := (withMirror s m a).faultAt (withMirror s m a).portcfg.toNat = true) hf]
      by_cases hl : k + 1 = frameLength s.n
      · rw [if_pos hl] at h
        cases h
        exact ⟨_, if_pos hl, m, a, rfl⟩
      · rw [if_neg hl] at h
        cases h
        exact ⟨_, if_neg hl, m, a, rfl⟩
  · rw [if_neg hk] at h
    cases h

/-- A copy step of SYNC_UP writes MB and reads FB. -/
theorem syncStep_up_sameButMirror {rest : List Nat} {s t : State} (m : Memory) (a : MirrorAnswer)
    (h : syncStep .up rest s = .next t) : ∃ u, syncStep .up rest (withMirror s m a) = .next u ∧ sameButMirror t u := by
  unfold syncStep at h ⊢
  split at h
  · cases h
  · rename_i hr
    cases h
    exact ⟨_, if_neg hr, sameButMirror_ite .rfl ⟨_, a, rfl⟩ ⟨_, a, rfl⟩⟩

theorem sequencerStep_sameButMirror {s t : State} (m : Memory) (a : MirrorAnswer) (hd : ∀ rest, s.phase ≠ .syncing .down rest)
    (h : sequencerStep s = .next t) : ∃ u, sequencerStep (withMirror s m a) = .next u ∧ sameButMirror t u := by
  have hp' : (withMirror s m a).phase = s.phase := rfl
  cases hp : s.phase with
  | idle =>
    rw [sequencerStep_idle hp] at h
    cases h
    exact ⟨_, sequencerStep_idle (hp'.trans hp), m, a, rfl⟩
  | accepted =>
    rw [sequencerStep, hp] at h
    rw [sequencerStep, hp', hp]
    exact acceptedStep_sameButMirror m a h
  | showing k =>
    rw [sequencerStep, hp] at h
    rw [sequencerStep, hp', hp]
    exact serializerStep_sameButMirror m a h
  | syncing dir rest =>
    rw [sequencerStep, hp] at h
    rw [sequencerStep, hp', hp]
    cases dir with
    | up => exact syncStep_up_sameButMirror m a h
    | down => exact absurd hp (hd rest)

/-- No register the host reads shows MB. -/
theorem hostWrite_sameButMirror (off n : Nat) (v : Word) (s : State) (m : Memory) (a : MirrorAnswer) :
    sameButMirror (hostWrite off n v s) (hostWrite off n v (withMirror s m a)) := by
  unfold hostWrite
  split
  · rename_i r _
    cases r with
    | cmd =>
      exact sameButMirror_answerHost _ (sameButMirror_ite .rfl ⟨m, a, rfl⟩ ⟨m, a, rfl⟩)
    | _ => exact ⟨m, a, rfl⟩
  · exact ⟨m, a, rfl⟩

theorem inputStep_sameButMirror {i : Input} {s t : State} (m : Memory) (a : MirrorAnswer) (hi : i ≠ .turn)
    (h : inputStep i s = .next t) : ∃ u, inputStep i (withMirror s m a) = .next u ∧ sameButMirror t u := by
  cases i with
  | turn => exact absurd rfl hi
  | hostRead off n =>
    cases h
    refine ⟨_, rfl, ?_⟩
    unfold hostRead
    split
    · rename_i r _
      cases r <;> exact ⟨m, a, rfl⟩
    · exact ⟨m, a, rfl⟩
  | hostWrite off n v =>
    cases h
    exact ⟨_, rfl, hostWrite_sameButMirror off n v s m a⟩
  | mirrorRead addr =>
    cases h
    exact ⟨_, rfl, sameButMirror_ite .rfl ⟨m, _, rfl⟩ ⟨m, _, rfl⟩⟩
  | mirrorWrite addr data =>
    cases h
    exact ⟨_, rfl, sameButMirror_ite .rfl ⟨_, _, rfl⟩ ⟨_, _, rfl⟩⟩
  | portFault p level =>
    cases h
    exact ⟨_, rfl, m, a, rfl⟩

/-- Settles O37: no step but a copy of SYNC_DOWN reads MB, except into the mirror port's answer. -/
theorem mirrorContentsReachOnlyTheMirrorPort : Obligations.MirrorContentsReachOnlyTheMirrorPort := by
  intro s t m a hd h
  have key : ∃ u, step (withMirror s m a) = .next u ∧ sameButMirror t u := by
    rcases step_source s with ⟨rest, hq⟩ | ⟨i, rest, hi, hin⟩
    · have hq' : sequencerMoves (withMirror s m a) rest := hq
      rw [step_sequencer hq] at h
      rw [step_sequencer hq']
      exact sequencerStep_sameButMirror (s := { s with inputs := rest }) m a (fun left hp => hd ⟨⟨rest, hq⟩, left, hp⟩) h
    · have hin' : (withMirror s m a).inputs = i :: rest := hin
      rw [step_input hin] at h
      rw [step_input hin']
      exact inputStep_sameButMirror m a hi h
  obtain ⟨_, hu, m', a', rfl⟩ := key
  exact ⟨m', a', hu⟩

end Sys2Proof.StateProofs
end

section
/-! What the first step of a command leaves unchanged (10_state.md R30 to R33, R43, 20_memory.md R83, 43_serializer.md R174, 44_mirror.md
R215), in three ranks: every command, every command but INIT, and the commands that touch no port. -/

namespace Sys2Proof.StateProofs

open Sys2Proof.Machine Sys2Proof.Safety Sys2Proof.Laws

/-- What no command touches: ARG, the latches, the inputs, the answers, the mark and OVR; and ANYERR is not cleared. -/
structure KeepsOutside (s t : State) : Prop where
  arg : t.arg = s.arg
  cmdL : t.cmdL = s.cmdL
  argL : t.argL = s.argL
  inputs : t.inputs = s.inputs
  portFault : t.portFault = s.portFault
  hostAnswer : t.hostAnswer = s.hostAnswer
  mirrorAnswer : t.mirrorAnswer = s.mirrorAnswer
  refusalMark : t.refusalMark = s.refusalMark
  ovr : t.status.ovr = s.status.ovr
  anyerr : s.status.anyerr = true → t.status.anyerr = true

/-- What no command but INIT touches. -/
structure KeepsConfiguration (s t : State) : Prop extends KeepsOutside s t where
  mb : t.mb = s.mb
  nleds : t.nleds = s.nleds
  portcfg : t.portcfg = s.portcfg
  clkhz : t.clkhz = s.clkhz
  init : t.status.init = s.status.init
  draws : t.draws = s.draws

/-- What no command but INIT, CLOSE and SHOW touches. -/
structure KeepsPorts (s t : State) : Prop extends KeepsConfiguration s t where
  ports : t.ports = s.ports
  opened : t.status.opened = s.status.opened
  halt : t.status.halt = s.status.halt

/-- A command that completes, having written FB at most, touches no port. -/
theorem keepsPorts_complete (rdata : Option Word) (fb : Memory) (s : State) : KeepsPorts s (complete rdata { s with fb := fb }) :=
  ⟨⟨⟨rfl, rfl, rfl, rfl, rfl, rfl, rfl, rfl, rfl, id⟩, rfl, rfl, rfl, rfl, rfl, rfl⟩, rfl, rfl, rfl⟩

/-- A failure that is not fatal touches no port (60_exceptions.md R254). -/
theorem keepsPorts_raise (c : Cause) (info : Option Int) (s : State) : KeepsPorts s (raise c false info s) :=
  ⟨⟨⟨rfl, rfl, rfl, rfl, rfl, rfl, rfl, rfl, rfl, fun _ => rfl⟩, rfl, rfl, rfl, rfl, rfl, rfl⟩, rfl, rfl, rfl⟩

theorem keepsPorts_enter (phase : Phase) (s : State) : KeepsPorts s (s.enter phase) :=
  ⟨⟨⟨rfl, rfl, rfl, rfl, rfl, rfl, rfl, rfl, rfl, id⟩, rfl, rfl, rfl, rfl, rfl, rfl⟩, rfl, rfl, rfl⟩

theorem keepsConfiguration_raise (c : Cause) (info : Option Int) (s : State) : KeepsConfiguration s (raise c true info s) :=
  ⟨⟨rfl, rfl, rfl, rfl, rfl, rfl, rfl, rfl, rfl, fun _ => rfl⟩, rfl, rfl, rfl, rfl, rfl, rfl⟩

/-! ### The bodies -/

/-- INIT. -/
def isInit : Instr → Bool
  | .init _ _ _ _ => true
  | _ => false

/-- The commands that may touch a port: INIT, CLOSE and SHOW. -/
def touchesPorts : Instr → Bool
  | .init _ _ _ _ | .close | .showFrame => true
  | _ => false

/-- The three queries, which answer in RDATA (10_state.md R32). -/
def isQuery : Instr → Bool
  | .getPixel _ | .encPrefix _ | .encEndlen _ => true
  | _ => false

/-- The command may write byte j of FB. -/
def mayWriteFb (i : Instr) (j : Nat) : Prop :=
  match i with
  | .init _ _ _ _ | .rotate _ | .clear => True
  | .setPixel idx _ _ _ =>
    j = channelOffset idx.toNat chBlue ∨ j = channelOffset idx.toNat chGreen ∨ j = channelOffset idx.toNat chRed
  | .setBrightness idx _ => j = channelOffset idx.toNat chPrefix
  | _ => False

theorem bodyOf_keepsPorts {i : Instr} (s : State) (hi : touchesPorts i = false) : KeepsPorts s (bodyOf i s) := by
  have done : ∀ rdata, KeepsPorts s (complete rdata s) := fun rdata => keepsPorts_complete rdata s.fb s
  have failed : ∀ c info, KeepsPorts s (raise c false info s) := fun c info => keepsPorts_raise c info s
  cases i with
  | init | close | showFrame => all_goals cases hi
  | nop | encEndlen => all_goals exact done _
  | clear => exact keepsPorts_complete none _ s
  | setPixel =>
    simp only [bodyOf]
    split
    · exact keepsPorts_complete none _ s
    · exact done none
  | getPixel =>
    simp only [bodyOf]
    split
    · exact done _
    · exact failed _ _
  | setBrightness =>
    simp only [bodyOf]
    split
    · exact failed _ _
    split
    · exact keepsPorts_complete none _ s
    · exact done none
  | syncUp | syncDown =>
    all_goals
      simp only [bodyOf, startSync]
      split
      · exact done none
      · exact keepsPorts_enter _ s
  | rotate =>
    simp only [bodyOf]
    split
    · exact failed _ _
    · exact keepsPorts_complete none _ s
  | encPrefix =>
    simp only [bodyOf]
    split
    · exact failed _ _
    · exact done _

theorem bodyOf_keepsConfiguration {i : Instr} (s : State) (hi : isInit i = false) : KeepsConfiguration s (bodyOf i s) := by
  cases i with
  | init => cases hi
  | close =>
    simp only [bodyOf]
    rw [releaseTransport_eq_with]
    exact ⟨⟨rfl, rfl, rfl, rfl, rfl, rfl, rfl, rfl, rfl, id⟩, rfl, rfl, rfl, rfl, rfl, rfl⟩
  | showFrame =>
    simp only [bodyOf]
    split
    · exact ⟨⟨rfl, rfl, rfl, rfl, rfl, rfl, rfl, rfl, rfl, id⟩, rfl, rfl, rfl, rfl, rfl, rfl⟩
    · exact keepsConfiguration_raise _ _ s
  | _ => exact (bodyOf_keepsPorts s rfl).toKeepsConfiguration

/-- INIT's body releases the transport, and then fails or constructs. -/
theorem initBody_cases (nleds ibri port : Nat) (clk : Word) (s : State) :
    (∃ c info, initBody nleds ibri port clk s = failInit c info (releaseTransport s)) ∨
      initBody nleds ibri port clk s = complete none (construct nleds ibri port clk (releaseTransport s)) := by
  simp only [initBody]
  split
  · exact .inl ⟨_, _, rfl⟩
  split
  · exact .inl ⟨_, _, rfl⟩
  split
  · exact .inl ⟨_, _, rfl⟩
  · exact .inr rfl

theorem bodyOf_keepsOutside (i : Instr) (s : State) : KeepsOutside s (bodyOf i s) := by
  cases i with
  | init nleds ibri port clk =>
    simp only [bodyOf]
    rcases initBody_cases nleds ibri port clk s with ⟨c, info, e⟩ | e <;> rw [e, releaseTransport_eq_with]
    · exact ⟨rfl, rfl, rfl, rfl, rfl, rfl, rfl, rfl, rfl, fun _ => rfl⟩
    · exact ⟨rfl, rfl, rfl, rfl, rfl, rfl, rfl, rfl, rfl, id⟩
  | _ => exact (bodyOf_keepsConfiguration s rfl).toKeepsOutside

/-- Only a query writes RDATA. -/
theorem bodyOf_rdata {i : Instr} (s : State) (hi : isQuery i = false) : (bodyOf i s).rdata = s.rdata := by
  cases i with
  | getPixel | encPrefix | encEndlen => all_goals cases hi
  | nop | clear => all_goals rfl
  | init nleds ibri port clk =>
    simp only [bodyOf]
    rcases initBody_cases nleds ibri port clk s with ⟨c, info, e⟩ | e <;> rw [e, releaseTransport_eq_with] <;> rfl
  | close => simp only [bodyOf]; rw [releaseTransport_eq_with]; rfl
  | setPixel | showFrame | rotate => all_goals simp only [bodyOf]; split <;> rfl
  | setBrightness =>
    simp only [bodyOf]
    split
    · rfl
    · split <;> rfl
  | syncUp | syncDown => all_goals simp only [bodyOf, startSync]; split <;> rfl

/-- A byte of FB that the command may not write is left as it was. -/
theorem bodyOf_fbByte {i : Instr} {j : Nat} (s : State) (hj : ¬mayWriteFb i j) : (bodyOf i s).fbByte j = s.fbByte j := by
  cases i with
  | init | rotate | clear => all_goals exact absurd trivial hj
  | nop | encEndlen => all_goals rfl
  | close => simp only [bodyOf]; rw [releaseTransport_eq_with]; rfl
  | setPixel idx red green blue =>
    obtain ⟨hb, hg, hr⟩ : j ≠ channelOffset idx.toNat chBlue ∧ j ≠ channelOffset idx.toNat chGreen ∧
      j ≠ channelOffset idx.toNat chRed := by simpa [mayWriteFb] using hj
    simp only [bodyOf]
    split
    · simp [State.fbByte, writeColour, hb, hg, hr]
    · rfl
  | setBrightness idx bri =>
    simp only [bodyOf]
    split
    · rfl
    split
    · exact read_write_other _ _ _ _ hj
    · rfl
  | getPixel | showFrame | encPrefix => all_goals simp only [bodyOf]; split <;> rfl
  | syncUp | syncDown => all_goals simp only [bodyOf, startSync]; split <;> rfl

/-! ### The whole first step -/

/-- A property of the checks' failure and of the body is one of the command's first step. -/
theorem exec_induct {P : State → Prop} {i : Instr} {s t : State} (h : exec i s = .next t)
    (failed : ∀ c info, P (raise c false info s)) (ran : P (bodyOf i s)) : P t := by
  rcases exec_cases h with ⟨_, rfl⟩ | ⟨_, _, _, rfl⟩ | ⟨_, _, rfl⟩
  · exact failed _ _
  · exact failed _ _
  · exact ran

theorem exec_keepsOutside {i : Instr} {s t : State} (h : exec i s = .next t) : KeepsOutside s t :=
  exec_induct h (fun c info => (keepsPorts_raise c info s).toKeepsOutside) (bodyOf_keepsOutside i s)

theorem exec_keepsConfiguration {i : Instr} {s t : State} (h : exec i s = .next t) (hi : isInit i = false) : KeepsConfiguration s t :=
  exec_induct h (fun c info => (keepsPorts_raise c info s).toKeepsConfiguration) (bodyOf_keepsConfiguration s hi)

theorem exec_keepsPorts {i : Instr} {s t : State} (h : exec i s = .next t) (hi : touchesPorts i = false) : KeepsPorts s t :=
  exec_induct h (fun c info => keepsPorts_raise c info s) (bodyOf_keepsPorts s hi)

theorem exec_rdata {i : Instr} {s t : State} (h : exec i s = .next t) (hi : isQuery i = false) : t.rdata = s.rdata :=
  exec_induct (P := fun u => u.rdata = s.rdata) h (fun _ _ => rfl) (bodyOf_rdata s hi)

theorem exec_fbByte {i : Instr} {s t : State} {j : Nat} (h : exec i s = .next t) (hj : ¬mayWriteFb i j) : t.fbByte j = s.fbByte j :=
  exec_induct (P := fun u => u.fbByte j = s.fbByte j) h (fun _ _ => rfl) (bodyOf_fbByte s hj)

/-- Settles O41, clause by clause from the frames of the bodies. -/
theorem commandsLeaveTheRestUnchanged : Obligations.CommandsLeaveTheRestUnchanged := by
  intro i s t h
  obtain ⟨harg, hcmdL, hargL, hin, hpf, hhost, hmirror, hmark, hovr, hany⟩ := exec_keepsOutside h
  refine ⟨harg, hcmdL, hargL, hin, hpf, hhost, hmirror, hmark, hovr, hany, ?_, ?_, ?_, ?_⟩
  · cases i with
    | init => trivial
    | _ =>
      obtain ⟨_, hmb, hn, hport, hclk, hinit, hdraws⟩ := exec_keepsConfiguration h rfl
      exact ⟨hmb, hn, hport, hclk, hinit, hdraws⟩
  · cases i with
    | getPixel | encPrefix | encEndlen => all_goals trivial
    | _ => exact exec_rdata h rfl
  · cases i with
    | init | close | showFrame => all_goals trivial
    | _ =>
      obtain ⟨_, hports, hopened, hhalt⟩ := exec_keepsPorts h rfl
      exact ⟨hports, hopened, hhalt⟩
  · cases i with
    | init | rotate | clear => all_goals trivial
    | setPixel =>
      intro j hb hg hr
      exact exec_fbByte h fun e => e.elim hb fun e => e.elim hg hr
    | setBrightness => exact fun j hj => exec_fbByte h hj
    | _ => exact fun j => exec_fbByte h id

end Sys2Proof.StateProofs
end

section
/-! The register window (10_state.md R21 to R37, R47, 20_memory.md R62) and reset (R50, 70_reset_and_hazards.md R270, R272). -/

namespace Sys2Proof.StateProofs

open Sys2Proof.Machine Sys2Proof.Safety Sys2Proof.Laws

/-! ### Host accesses of the register window -/

/-- The step of an admitted read: the register's value is the answer (20_memory.md R62, R67). -/
theorem step_read {s : State} {off : Nat} {r : Reg} {rest : List Input} (hr : regAt off = some r)
    (h : s.inputs = .hostRead off 4 :: rest) : step s = .next { s with inputs := rest, hostAnswer := .data (readReg s r) } := by
  have hit : admitted off 4 = some r := hr
  rw [step_input h]
  simp only [inputStep, hostRead, hit]
  cases r <;> rfl

/-- The step of an admitted write: the register's effect, and the answer that it was taken (20_memory.md R62). -/
theorem step_write {s : State} {off : Nat} {r : Reg} {v : Word} {rest : List Input} (hr : regAt off = some r)
    (h : s.inputs = .hostWrite off 4 v :: rest) : step s = .next ((writeReg v { s with inputs := rest } r).answerHost .written) := by
  have hit : admitted off 4 = some r := hr
  rw [step_input h]
  simp only [inputStep, hostWrite, hit]

/-- Settles O42: an admitted write of CMD with BUSY = 0 is `accept`. -/
theorem commandWriteIsAccepted : Obligations.CommandWriteIsAccepted := by
  intro s v rest h hb
  have hb' : State.busy { s with inputs := rest } = false := hb
  refine ⟨(accept v { s with inputs := rest }).answerHost .written, ?_, rfl, rfl⟩
  rw [step_write (r := .cmd) rfl h, writeReg, writeCmd, hb']
  rfl

/-! ### STATUS -/

/-- A flag of the STATUS word is the field that R24 puts there. -/
theorem statusWord_flags (st : Status) (busy : Bool) :
    (st.word busy).getLsbD 0 = busy ∧ (st.word busy).getLsbD 1 = st.init ∧ (st.word busy).getLsbD 2 = st.opened ∧
      (st.word busy).getLsbD 3 = st.halt ∧ (st.word busy).getLsbD 4 = st.err ∧ (st.word busy).getLsbD 5 = st.anyerr ∧
      (st.word busy).getLsbD 6 = st.ovr ∧ (st.word busy).getLsbD 7 = false := by
  simp only [Status.word, BitVec.getLsbD_append]
  simp

/-- Above the flags the STATUS word holds CAUSE, LASTOP and zeros (R24). -/
theorem statusWord_high (st : Status) (busy : Bool) (start len : Nat) :
    (st.word busy).extractLsb' (8 + start) len = (0#16 ++ st.lastop ++ st.cause.code).extractLsb' start len := by
  apply BitVec.eq_of_getLsbD_eq
  intro i _
  simp only [Status.word, BitVec.getLsbD_extractLsb', BitVec.getLsbD_append]
  simp [Nat.add_assoc]

/-- CAUSE, LASTOP and the reserved upper half of the STATUS word (R24). -/
theorem statusWord_fields (st : Status) (busy : Bool) :
    (st.word busy).extractLsb' 8 4 = st.cause.code ∧ (st.word busy).extractLsb' 12 4 = st.lastop ∧
      (st.word busy).extractLsb' 16 16 = 0 := by
  refine ⟨(statusWord_high st busy 0 4).trans ?_, (statusWord_high st busy 4 4).trans ?_, (statusWord_high st busy 8 16).trans ?_⟩
  · exact BitVec.extractLsb'_append_eq_right
  · rw [BitVec.extractLsb'_append_eq_of_le (by decide)]
    exact BitVec.extractLsb'_append_eq_right
  · rw [BitVec.extractLsb'_append_eq_of_le (by decide), BitVec.extractLsb'_append_eq_of_le (by decide)]
    exact BitVec.extractLsb'_eq_self

theorem causeCode_le (c : Cause) : c.code.toNat ≤ 8 := by cases c <;> decide

/-- A write of a one clears a flag, a write of a zero keeps it. -/
theorem clearW1C_eq (st : Status) (v : Word) :
    st.clearW1C v = { st with
      anyerr := if v.getLsbD 5 then false else st.anyerr, ovr := if v.getLsbD 6 then false else st.ovr } := by
  have clears : ∀ bit flag : Bool, (flag && !bit) = if bit then false else flag := by decide
  rw [Status.clearW1C, clears, clears]

/-- Settles O44, from the layout of the STATUS word and the effect of a write of it. -/
theorem statusRegisterFieldsAndClearing : Obligations.StatusRegisterFieldsAndClearing := by
  refine ⟨fun s => ?_, ⟨rfl, rfl, rfl, rfl, rfl, rfl, rfl, rfl, rfl, causeCode_le⟩, fun s v rest h => ?_⟩
  · obtain ⟨h0, h1, h2, h3, h4, h5, h6, h7⟩ := statusWord_flags s.status s.busy
    obtain ⟨hcause, hlastop, hrest⟩ := statusWord_fields s.status s.busy
    exact ⟨_, rfl, h0, h1, h2, h3, h4, h5, h6, h7, hcause, hlastop, hrest⟩
  · rw [step_write (r := .status) rfl h, writeReg, clearW1C_eq]
    rfl

/-! ### Reads and the other writes -/

/-- FRAMELEN loses no bit of FLEN(N) for N up to 1024 (10_state.md R36, log entry 16). -/
theorem frameLenReg_toNat (s : State) (hn : s.n ≤ 1024) :
    s.frameLenReg.toNat = if s.status.init then 4 + 4 * s.n + (s.n + 15) / 16 else 0 := by
  have length : frameLength s.n = 4 + 4 * s.n + (s.n + 15) / 16 := rfl
  unfold State.frameLenReg
  split
  · rw [BitVec.toNat_ofNat, length, Nat.mod_eq_of_lt (by omega)]
  · rfl

/-- Settles O46, register by register. -/
theorem hostReadsReturnTheRegisters : Obligations.HostReadsReturnTheRegisters := by
  intro s k rest hk hn h
  match k, hk with
  | 0, _ => exact ⟨_, step_read (r := .cmd) rfl h, rfl⟩
  | 1, _ => exact ⟨_, step_read (r := .arg) rfl h, rfl⟩
  | 2, _ => exact ⟨_, step_read (r := .status) rfl h, rfl⟩
  | 3, _ => exact ⟨_, step_read (r := .rdata) rfl h, rfl⟩
  | 4, _ => exact ⟨_, step_read (r := .nleds) rfl h, BitVec.toNat_setWidth_of_le (by decide)⟩
  | 5, _ => exact ⟨_, step_read (r := .portcfg) rfl h, BitVec.toNat_setWidth_of_le (by decide)⟩
  | 6, _ => exact ⟨_, step_read (r := .clkhz) rfl h, rfl⟩
  | 7, _ =>
    exact ⟨_, step_read (r := .framelen) rfl h, (BitVec.toNat_setWidth_of_le (by decide)).trans (frameLenReg_toNat s hn)⟩

/-- Settles O47, register by register. -/
theorem otherRegisterWrites : Obligations.OtherRegisterWrites := by
  intro s off v rest h
  constructor
  · rintro rfl
    exact step_write (r := .arg) rfl h
  · rintro (rfl | rfl | rfl | rfl | rfl)
    · exact step_write (r := .rdata) rfl h
    · exact step_write (r := .nleds) rfl h
    · exact step_write (r := .portcfg) rfl h
    · exact step_write (r := .clkhz) rfl h
    · exact step_write (r := .framelen) rfl h

/-- One level is driven and no other moves. -/
theorem drivePortFault_faultAt (s : State) (p q : PortIndex) (level : Bool) :
    (drivePortFault p level s).faultAt q.toNat = if q = p then level else s.faultAt q.toNat := by
  have hq : q.toNat < 16 := q.isLt
  by_cases h : q = p
  · subst h
    rw [if_pos rfl]
    cases level <;> simp [drivePortFault, State.faultAt, hq]
  · have hne : q.toNat ≠ p.toNat := fun e => h (BitVec.eq_of_toNat_eq e)
    rw [if_neg h]
    cases level <;> simp [drivePortFault, State.faultAt, hq, hne]

/-- Settles O48, by the bits of PORT_FAULT. -/
theorem platformDrivesOnePortFault : Obligations.PlatformDrivesOnePortFault := by
  intro s p level rest h
  exact ⟨drivePortFault p level { s with inputs := rest }, step_input h, fun q => drivePortFault_faultAt _ p q level, rfl⟩

/-! ### Reset -/

theorem port_reset (p : PortIndex) : State.reset.port p = Port.fresh := by
  simp [State.port, State.reset]

/-- With INIT = 0 the mirror port refuses every access (44_mirror.md R212). -/
theorem mirrorAdmits_of_not_init {s : State} (h : s.status.init = false) (a : MirrorAddr) : mirrorAdmits s a = false := by
  rw [mirrorAdmits, h, Bool.false_and]

theorem readReg_reset (r : Reg) : readReg State.reset r = 0 := by cases r <;> decide

/-- Settles O49, clause by clause at the reset state. -/
theorem resetLeavesTheLaunchState : Obligations.ResetLeavesTheLaunchState :=
  ⟨readReg_reset, rfl, rfl, rfl, port_reset, rfl, rfl, rfl, mirrorAdmits_of_not_init rfl⟩

/-- Asserting RST gives the registers their values of reset. -/
theorem readReg_assertRst (s : State) (r : Reg) : readReg (assertRst s) r = readReg State.reset r := by cases r <;> rfl

/-- Asserting RST releases every port, with the bits cut off of the byte in progress. -/
theorem port_assertRst (s : State) (p : PortIndex) : (assertRst s).port p = (s.port p).release s.resetCut := by
  simp [assertRst, State.port]

/-- Settles O50: the bits cut off are those of the draw of log entry 6. -/
theorem assertingResetAbandonsTheCommand : Obligations.AssertingResetAbandonsTheCommand := by
  intro s
  refine ⟨fun r => (readReg_assertRst s r).trans (readReg_reset r), rfl, rfl, rfl, rfl, mirrorAdmits_of_not_init rfl,
    (Config.partialBits s.draws).val, Nat.le_of_lt_succ (Config.partialBits s.draws).isLt, fun p => ?_⟩
  rw [port_assertRst]
  exact ⟨⟨release_levels _ _, release_live _ _⟩, rfl⟩

theorem reset_config : ConfigSound State.reset where
  count := Nat.zero_le _
  openInit := nofun
  haltClosed := nofun
  unbuilt _ := ⟨rfl, rfl, rfl⟩
  portExists := Nat.succ_pos _
  clock := nofun
  fbLength := nofun
  mbLength := nofun
  syncing := nofun

theorem reset_wire : WireSound State.reset :=
  wireSound_of_allIdle (fun p => by rw [port_reset]; exact ⟨rfl, rfl⟩) nofun

theorem reset_records : RecordsSound State.reset where
  errCause := by decide
  logged := by decide
  marked := by decide

/-- Settles O56, invariant by invariant. -/
theorem resetMeetsEveryInvariant : Obligations.ResetMeetsEveryInvariant :=
  ⟨⟨reset_buffers_wf, reset_config, reset_wire, reset_records⟩, fun i hi => absurd hi (Nat.not_lt_zero i)⟩

end Sys2Proof.StateProofs
end

section
/-! The memory and ordering rules (20_memory.md): the byte lanes of a word (R65), host accesses that are refused (R63, R64), and what a
device samples on SCLK (R70, 43_serializer.md R183). -/

namespace Sys2Proof.MemoryProofs

open Sys2Proof.Machine Sys2Proof.Safety Sys2Proof.Laws Sys2Proof.StateProofs

/-! ### Byte lanes -/

/-- The four lanes are adjacent slices of the word, so that putting them side by side is taking the slice of all 32 bits. -/
theorem wordOfLanes_byteLane (v : Word) : wordOfLanes (byteLane v 0) (byteLane v 1) (byteLane v 2) (byteLane v 3) = v := by
  unfold wordOfLanes byteLane
  rw [BitVec.extractLsb'_append_extractLsb'_eq_extractLsb' (show 8 * 3 = 8 * 2 + 8 from rfl),
    BitVec.extractLsb'_append_extractLsb'_eq_extractLsb' (show 8 * 2 = 8 * 1 + 8 from rfl),
    BitVec.extractLsb'_append_extractLsb'_eq_extractLsb' (show 8 * 1 = 8 * 0 + 8 from rfl)]
  exact BitVec.extractLsb'_eq_self

theorem byteLane_getLsbD (v : Word) (k : Nat) {t : Nat} (ht : t < 8) : (byteLane v k).getLsbD t = v.getLsbD (8 * k + t) := by
  simp [byteLane, ht]

/-- Settles O6, by the slices that the lanes are. -/
theorem byteLanesAreLittleEndian : Obligations.ByteLanesAreLittleEndian := fun v =>
  ⟨wordOfLanes_byteLane v, fun k _ _ ht => byteLane_getLsbD v k ht⟩

/-! ### Refused host accesses -/

/-- Every register stands at a multiple of 4 below 0x20 (10_state.md R21). -/
theorem regAt_offset {off : Nat} {r : Reg} (h : regAt off = some r) : off % 4 = 0 ∧ off < 0x20 := by
  unfold regAt at h
  split at h
  case h_9 => cases h
  all_goals decide

/-- An access of another width, alignment or range reaches no register (20_memory.md R63, R64). -/
theorem admitted_eq_none {off n : Nat} (h : n ≠ 4 ∨ off % 4 ≠ 0 ∨ 0x20 ≤ off) : admitted off n = none := by
  unfold admitted
  split
  · rename_i hn
    refine Option.eq_none_iff_forall_ne_some.mpr fun r hr => ?_
    obtain ⟨haligned, hinside⟩ := regAt_offset hr
    omega
  · rfl

theorem hostRead_eq_refuseHost {off n : Nat} (h : admitted off n = none) (s : State) : hostRead off n s = refuseHost s := by
  simp only [hostRead, h]

theorem hostWrite_eq_refuseHost {off n : Nat} (h : admitted off n = none) (v : Word) (s : State) :
    hostWrite off n v s = refuseHost s := by
  simp only [hostWrite, h]

/-- Settles O45: an access that reaches no register is `refuseHost`, read or write. -/
theorem badHostAccessIsRefused : Obligations.BadHostAccessIsRefused := by
  intro s off n v rest hbad hin
  have hmiss : admitted off n = none := admitted_eq_none hbad
  rcases hin with hin | hin
  · exact (step_input hin).trans (congrArg Host.Outcome.next (hostRead_eq_refuseHost hmiss _))
  · exact (step_input hin).trans (congrArg Host.Outcome.next (hostWrite_eq_refuseHost hmiss v _))

/-! ### What a device samples -/

/-- From SCLK low, each bit period has one rising edge, at which SDO is that bit, and ends with SCLK low (43_serializer.md R183). -/
theorem samples_bitWaves (bits : List Bool) (w : List Levels) :
    samples false (bits.flatMap bitWave ++ w) = bits ++ samples false w := by
  induction bits with
  | nil => rfl
  | cons b bits ih =>
    calc samples false ((b :: bits).flatMap bitWave ++ w)
        = b :: samples false (bits.flatMap bitWave ++ w) := rfl
      _ = b :: (bits ++ samples false w) := by rw [ih]

/-- Over a frame a device samples the bits of the frame: neither the fall nor the rise of CS_n is an edge of SCLK. -/
theorem samples_wave (f : Frame) : samples false f.wave = f.bits := (samples_bitWaves f.bits [Levels.idle]).trans (List.append_nil _)

theorem bitsMsbFirst_length (b : Byte) : (bitsMsbFirst b).length = 8 := rfl

theorem bitsMsbFirst_getElem? (b : Byte) {t : Nat} (ht : t < 8) : (bitsMsbFirst b)[t]? = some (b.getLsbD (7 - t)) := by
  interval_cases t <;> rfl

theorem byteBits_length (bytes : List Byte) : (bytes.flatMap bitsMsbFirst).length = 8 * bytes.length := by
  simp [List.length_flatMap, bitsMsbFirst_length, Nat.mul_comm]

/-- Bit 8k + t of what the bytes put on the wire, and whatever follows them, is bit 7 - t of byte k (20_memory.md R70). -/
theorem byteBits_getElem? {bytes : List Byte} {k t : Nat} {b : Byte} (hb : bytes[k]? = some b) (ht : t < 8) (more : List Bool) :
    (bytes.flatMap bitsMsbFirst ++ more)[8 * k + t]? = some (b.getLsbD (7 - t)) := by
  induction bytes generalizing k with
  | nil => cases hb
  | cons c bytes ih =>
    rw [List.flatMap_cons, List.append_assoc]
    cases k with
    | zero =>
      obtain rfl : c = b := Option.some.inj hb
      rw [Nat.mul_zero, Nat.zero_add, List.getElem?_append_left ht]
      exact bitsMsbFirst_getElem? c ht
    | succ k =>
      have past : 8 * (k + 1) + t - 8 = 8 * k + t := by omega
      rw [List.getElem?_append_right (by rw [bitsMsbFirst_length]; omega), bitsMsbFirst_length, past]
      exact ih hb

/-- Settles O31: the samples are the frame's bits, eight to a byte and then the partial ones. -/
theorem risingEdgesCarryTheFrameBits : Obligations.RisingEdgesCarryTheFrameBits := by
  intro f
  rw [samples_wave, Frame.bits]
  refine ⟨?_, fun k t b hb ht => byteBits_getElem? hb ht _, List.drop_left' (byteBits_length f.bytes)⟩
  rw [List.length_append, byteBits_length]

end Sys2Proof.MemoryProofs
end

section
/-! The records and the frames sent only grow (60_exceptions.md R263, 70_reset_and_hazards.md R293, 20_memory.md R74, 43_serializer.md
R188).  A step may release a port twice, but the second release finds it idle, so that no step ends two frames on a port. -/

namespace Sys2Proof.MemoryProofs

open Sys2Proof.Machine Sys2Proof.Safety Sys2Proof.Laws Sys2Proof.StateProofs

/-! ### Ports that may have been released -/

/-- `q` is the port `p`, or `p` released. -/
def mayRelease (p q : Port) : Prop := q = p ∨ ∃ cut, q = p.release cut

theorem mayRelease_refl (p : Port) : mayRelease p p := .inl rfl

/-- A second release changes nothing. -/
theorem mayRelease_trans {p q r : Port} (h : mayRelease p q) (h' : mayRelease q r) : mayRelease p r := by
  rcases h with rfl | ⟨cut, rfl⟩
  · exact h'
  · rcases h' with rfl | ⟨cut', rfl⟩
    · exact .inr ⟨cut, rfl⟩
    · exact .inr ⟨cut, release_idle _ cut' (release_levels p cut) (release_live p cut)⟩

theorem mayRelease_releasePort (cut : List Bool) (s : State) (p : PortIndex) : mayRelease (s.port p) ((s.releasePort cut).port p) := by
  rw [port_releasePort]
  split
  · rename_i hp; subst hp; exact .inr ⟨cut, rfl⟩
  · exact mayRelease_refl _

theorem mayRelease_releaseTransport (s : State) (p : PortIndex) : mayRelease (s.port p) ((releaseTransport s).port p) := by
  rw [releaseTransport_eq]
  split
  · exact mayRelease_releasePort [] s p
  · exact mayRelease_refl _

theorem mayRelease_raise (c : Cause) (fatal : Bool) (info : Option Int) (s : State) (p : PortIndex) :
    mayRelease (s.port p) ((raise c fatal info s).port p) := by
  rw [port_raise]
  split
  · exact mayRelease_releasePort [] s p
  · exact mayRelease_refl _

/-! ### The frames of a port -/

/-- At most one frame was added to those sent on a port. -/
def framesGrow (p q : Port) : Prop := q.frames = p.frames ∨ ∃ f, q.frames = p.frames ++ [f]

/-- A release ends the frame in progress, if there is one (43_serializer.md R182, R190). -/
theorem framesGrow_of_mayRelease {p q : Port} (h : mayRelease p q) : framesGrow p q := by
  rcases h with rfl | ⟨cut, rfl⟩
  · exact .inl rfl
  · unfold framesGrow Port.release
    split
    · exact .inl rfl
    · exact .inr ⟨_, rfl⟩

/-- Sending a byte ends no frame. -/
theorem sendByte_frames (k : Nat) (s : State) (p : PortIndex) : ((sendByte k s).port p).frames = (s.port p).frames := by
  rw [port_sendByte]
  split
  · rename_i hp; subst hp; rfl
  · rfl

/-- Selecting a port ends no frame. -/
theorem select_frames (s : State) (p q : PortIndex) : ((s.modifyPort p Port.select).port q).frames = (s.port q).frames := by
  rw [port_modifyPort]
  split
  · rename_i hq; subst hq; rfl
  · rfl

/-! ### The records along the moves of a step -/

/-- What a step may do to the records: one more log entry, the mark set, one more frame on a port. -/
structure RecordsGrow (s t : State) : Prop where
  log : t.faultLog = s.faultLog ∨ ∃ e, t.faultLog = s.faultLog ++ [e]
  mark : s.refusalMark = true → t.refusalMark = true
  frames : ∀ p, framesGrow (s.port p) (t.port p)

/-- A move that leaves the log, the mark and the frames alone. -/
theorem recordsGrow_of_same {s t : State} (hl : t.faultLog = s.faultLog) (hm : t.refusalMark = s.refusalMark)
    (hf : ∀ p, (t.port p).frames = (s.port p).frames) : RecordsGrow s t :=
  ⟨.inl hl, hm.trans, fun p => .inl (hf p)⟩

theorem releaseTransport_faultLog (s : State) : (releaseTransport s).faultLog = s.faultLog := by rw [releaseTransport_eq_with]

theorem releaseTransport_refusalMark (s : State) : (releaseTransport s).refusalMark = s.refusalMark := by
  rw [releaseTransport_eq_with]

/-- A release of the transport logs nothing, and may end a frame. -/
theorem recordsGrow_releaseTransport (s : State) : RecordsGrow s (releaseTransport s) where
  log := .inl (releaseTransport_faultLog s)
  mark := (releaseTransport_refusalMark s).trans
  frames p := framesGrow_of_mayRelease (mayRelease_releaseTransport s p)

/-- A failure logs one entry, and may release a port that may have been released before. -/
theorem recordsGrow_raise {s u : State} (c : Cause) (fatal : Bool) (info : Option Int) (hl : u.faultLog = s.faultLog)
    (hm : u.refusalMark = s.refusalMark) (hp : ∀ p, mayRelease (s.port p) (u.port p)) : RecordsGrow s (raise c fatal info u) where
  log := .inr ⟨_, by rw [raise_faultLog, hl]⟩
  mark h := by rw [raise_refusalMark, hm, h]
  frames p := framesGrow_of_mayRelease (mayRelease_trans (hp p) (mayRelease_raise c fatal info u p))

/-- The last byte of a frame: the frame joins those sent (43_serializer.md R176). -/
theorem recordsGrow_sendsLast (k : Nat) (s : State) : RecordsGrow s (complete none ((sendByte k s).releasePort [])) where
  log := .inl rfl
  mark := id
  frames p := by
    have ended := framesGrow_of_mayRelease (mayRelease_releasePort [] (sendByte k s) p)
    unfold framesGrow at ended
    rwa [sendByte_frames] at ended

/-- A copy step touches FB or MB, and no record. -/
theorem recordsGrow_copyStep (dir : Direction) (rest : List Nat) (j : Nat) (s : State) : RecordsGrow s (copyStep dir rest j s) := by
  obtain ⟨hlog, hmark⟩ : (copyStep dir rest j s).faultLog = s.faultLog ∧ (copyStep dir rest j s).refusalMark = s.refusalMark := by
    rw [copyStep_eq]
    cases dir <;> split <;> exact ⟨rfl, rfl⟩
  exact recordsGrow_of_same hlog hmark fun p => by rw [copyStep_port]

theorem sequencerMove_recordsGrow {s t : State} (hm : SequencerMove s t) : RecordsGrow s t := by
  have still : ∀ p, mayRelease (s.port p) (s.port p) := fun p => mayRelease_refl _
  cases hm with
  | rests | completes | edits | startsCopy => all_goals exact recordsGrow_of_same rfl rfl fun _ => rfl
  | fails c info => exact recordsGrow_raise c false info rfl rfl still
  | failsShow => exact recordsGrow_raise _ true _ rfl rfl still
  | closes | constructs =>
    all_goals exact { recordsGrow_releaseTransport s with }
  | failsInit c info =>
    exact recordsGrow_raise c true (some info) (releaseTransport_faultLog s) (releaseTransport_refusalMark s)
      (mayRelease_releaseTransport s)
  | selects => exact recordsGrow_of_same rfl rfl (select_frames s s.portcfg)
  | cutsOff k => exact recordsGrow_raise _ true _ rfl rfl (mayRelease_releasePort _ s)
  | sendsLast k => exact recordsGrow_sendsLast k s
  | sends k => exact recordsGrow_of_same rfl rfl (sendByte_frames k s)
  | copies dir rest => exact { recordsGrow_copyStep dir rest _ s.drawn with }

theorem agentMove_recordsGrow {s t : State} (hm : AgentMove s t) : RecordsGrow s t := by
  cases hm with
  | refusesHost | refusesMirror => all_goals exact ⟨.inl rfl, fun _ => rfl, fun _ => .inl rfl⟩
  | _ => exact recordsGrow_of_same rfl rfl fun _ => rfl

/-- Settles O58, a case analysis over the moves of a step. -/
theorem recordsOnlyGrow : Obligations.RecordsOnlyGrow := by
  intro s t h
  obtain ⟨rest, hm⟩ := step_move h
  obtain ⟨hlog, hmark, hframes⟩ : RecordsGrow { s with inputs := rest } t :=
    hm.elim (fun hseq => sequencerMove_recordsGrow hseq.2) agentMove_recordsGrow
  exact ⟨hlog, hmark, hframes⟩

end Sys2Proof.MemoryProofs
end

section
/-! The decoder and the encoder (30_encoding.md R90 to R107): the slices of a word, the rows of the opcode map, and that decoding and
encoding undo each other. -/

namespace Sys2Proof.EncodingProofs

open Sys2Proof.Machine Sys2Proof.Laws

/-! ### Slices of a word -/

/-- Two words are equal when they agree from bit `k` on and below it. -/
theorem word_eq_iff_slices {v w : Word} (k len : Nat) (hk : k + len = 32) :
    v = w ↔ v.extractLsb' k len = w.extractLsb' k len ∧ v.extractLsb' 0 k = w.extractLsb' 0 k := by
  refine ⟨fun h => h ▸ ⟨rfl, rfl⟩, fun ⟨hhigh, hlow⟩ => BitVec.eq_of_getLsbD_eq fun i hi => ?_⟩
  rcases Nat.lt_or_ge i k with hik | hik
  · simpa [hik] using congrArg (fun x => x.getLsbD i) hlow
  · have hlen : i - k < len := by omega
    simpa [hlen, Nat.add_sub_cancel' hik] using congrArg (fun x => x.getLsbD (i - k)) hhigh

/-- A mask that is all ones on a slice lets that slice through. -/
theorem slice_eq_zero {v m : Word} {start len : Nat} (hm : m.extractLsb' start len = BitVec.allOnes len) (h : v &&& m = 0) :
    v.extractLsb' start len = 0 := by
  have hslice := congrArg (BitVec.extractLsb' start len) h
  rwa [BitVec.extractLsb'_and, hm, BitVec.and_allOnes, BitVec.ofNat_eq_ofNat, BitVec.extractLsb'_zero] at hslice

/-- ARG[31:24] is 0 exactly when no bit of SET_PIXEL's operand mask is 1 (R103). -/
theorem argHigh_iff (arg : Word) : arg &&& 0xFF000000 = 0 ↔ arg.extractLsb' 24 8 = 0 := by
  refine ⟨slice_eq_zero (by decide), fun h => (word_eq_iff_slices 24 8 rfl).mpr ⟨?_, ?_⟩⟩
  · rw [BitVec.extractLsb'_and, h]; decide
  · rw [BitVec.extractLsb'_and, show (0xFF000000 : Word).extractLsb' 0 24 = 0#24 by decide, BitVec.and_zero]; decide

/-! ### The rows of the opcode map -/

/-- The mask of a row is its opcode field and the reserved bits of its format, which leave the opcode field out. -/
theorem mask_slices (f : Format) :
    f.resMask.extractLsb' 28 4 = 0#4 ∧ (0xF0000000 ||| f.resMask).extractLsb' 28 4 = BitVec.allOnes 4 ∧
      (0xF0000000 ||| f.resMask).extractLsb' 0 28 = f.resMask.extractLsb' 0 28 := by cases f <;> decide

/-- A word matches a row exactly when its opcode is the row's and the reserved bits of the row's format are 0 (R100). -/
theorem matchesWord_iff (r : OpRow) (cmd : Word) :
    r.matchesWord cmd = true ↔ opField cmd = r.op ∧ cmd &&& r.format.resMask = 0 := by
  obtain ⟨hres, hop, hlow⟩ := mask_slices r.format
  have rowOp : r.matchWord.extractLsb' 28 4 = r.op := BitVec.extractLsb'_append_eq_left
  have rowLow : r.matchWord.extractLsb' 0 28 = 0 := BitVec.extractLsb'_append_eq_right
  have reserved : cmd &&& r.format.resMask = 0 ↔ (cmd &&& r.format.resMask).extractLsb' 0 28 = 0 := by
    rw [word_eq_iff_slices 28 4 rfl, BitVec.extractLsb'_and, hres, BitVec.and_zero]
    simp
  rw [OpRow.matchesWord, beq_iff_eq, word_eq_iff_slices 28 4 rfl, rowOp, rowLow, reserved, OpRow.mask, BitVec.extractLsb'_and,
    BitVec.extractLsb'_and, BitVec.extractLsb'_and, hop, hlow, BitVec.and_allOnes]
  rfl

/-- No two rows share an opcode (R99). -/
theorem row_eq_of_op : ∀ r ∈ opcodeMap, ∀ q ∈ opcodeMap, r.op = q.op → r = q := by decide

/-- Every opcode below 0xD has a row (R99, R102). -/
theorem exists_row : ∀ op : BitVec 4, op.toNat < 0xD → ∃ r ∈ opcodeMap, r.op = op := by decide

/-! ### The fields and the decoder -/

/-- Only the opcodes of the map have fields (R102). -/
theorem fieldsOf_reserved {cmd : Word} (arg : Word) (h : 0xD ≤ (opField cmd).toNat) : fieldsOf cmd arg = none := by
  unfold fieldsOf
  split
  case h_14 => rfl
  all_goals omega

/-- A word with a row's opcode has the fields of a command of that row's format, and SET_PIXEL's row alone reserves bits of ARG. -/
theorem fieldsOf_row {cmd : Word} (arg : Word) {r : OpRow} (hr : r ∈ opcodeMap) (h : opField cmd = r.op) :
    ∃ i, fieldsOf cmd arg = some i ∧ i.format = r.format ∧ i.argResMask = if r.op = 0x3 then 0xFF000000 else 0 := by
  unfold fieldsOf
  rw [h]
  simp only [opcodeMap, List.mem_cons, List.not_mem_nil, or_false] at hr
  rcases hr with rfl | rfl | rfl | rfl | rfl | rfl | rfl | rfl | rfl | rfl | rfl | rfl | rfl
  all_goals exact ⟨_, rfl, rfl, rfl⟩

/-- What has fields has the opcode of a row, and is a command of that row's format. -/
theorem fieldsOf_some {cmd arg : Word} {i : Instr} (h : fieldsOf cmd arg = some i) :
    ∃ r ∈ opcodeMap, opField cmd = r.op ∧ i.format = r.format ∧ i.argResMask = if r.op = 0x3 then 0xFF000000 else 0 := by
  rcases Nat.lt_or_ge (opField cmd).toNat 0xD with hlt | hge
  · obtain ⟨r, hr, hop⟩ := exists_row _ hlt
    obtain ⟨j, hj, hformat, hmask⟩ := fieldsOf_row arg hr hop.symm
    obtain rfl : i = j := Option.some.inj (h.symm.trans hj)
    exact ⟨r, hr, hop.symm, hformat, hmask⟩
  · cases h.symm.trans (fieldsOf_reserved arg hge)

/-- What it takes to decode to `i` (R101 to R103). -/
theorem decode_ok_iff (cmd arg : Word) (i : Instr) :
    decode cmd arg = .ok i ↔ fieldsOf cmd arg = some i ∧ cmd &&& i.format.resMask = 0 ∧ arg &&& i.argResMask = 0 := by
  unfold decode
  constructor
  · intro h
    split at h
    · cases h
    · next j hj =>
      split_ifs at h with hres harg
      cases h
      exact ⟨hj, not_not.mp hres, not_not.mp harg⟩
  · rintro ⟨hfields, hres, harg⟩
    simp only [hfields, hres, harg, ne_eq, not_true, if_false]

/-- A pair of words decodes exactly when the command word matches a row and SET_PIXEL's reserved operand bits are 0 (R100, R103). -/
theorem decodes_iff (cmd arg : Word) :
    (∃ i, decode cmd arg = .ok i) ↔
      (∃ r ∈ opcodeMap, r.matchesWord cmd = true) ∧ (opField cmd = 0x3 → arg.extractLsb' 24 8 = 0) := by
  constructor
  · rintro ⟨i, h⟩
    obtain ⟨hfields, hres, harg⟩ := (decode_ok_iff cmd arg i).mp h
    obtain ⟨r, hr, hop, hformat, hmask⟩ := fieldsOf_some hfields
    refine ⟨⟨r, hr, (matchesWord_iff r cmd).mpr ⟨hop, hformat ▸ hres⟩⟩, fun hpixel => (argHigh_iff arg).mp ?_⟩
    rwa [hmask, if_pos (hop.symm.trans hpixel)] at harg
  · rintro ⟨⟨r, hr, hmatch⟩, hpixel⟩
    obtain ⟨hop, hres⟩ := (matchesWord_iff r cmd).mp hmatch
    obtain ⟨i, hfields, hformat, hmask⟩ := fieldsOf_row arg hr hop
    refine ⟨i, (decode_ok_iff cmd arg i).mpr ⟨hfields, hformat.symm ▸ hres, ?_⟩⟩
    rw [hmask]
    split
    · next h => exact (argHigh_iff arg).mpr (hpixel (hop.trans h))
    · exact BitVec.and_zero

/-! ### The operands of a command and their fields -/

theorem countFits_iff (n : Nat) : countFits n = true ↔ n < 2 ^ 11 := decide_eq_true_iff.trans Nat.lt_succ_iff.symm

theorem brightnessFits_iff (bri : Nat) : brightnessFits bri = true ↔ bri < 2 ^ 7 := decide_eq_true_iff.trans Nat.lt_succ_iff.symm

theorem portFits_iff (port : Nat) : portFits port = true ↔ port < 2 ^ 4 := decide_eq_true_iff.trans Nat.lt_succ_iff.symm

/-- An unsigned field carries every operand that fits. -/
theorem toNat_ofNat_of_fits {w n : Nat} (h : n < 2 ^ w) : (BitVec.ofNat w n).toNat = n :=
  (BitVec.toNat_ofNat n w).trans (Nat.mod_eq_of_lt h)

/-- IDX carries every index that fits (R94). -/
theorem toInt_ofInt_of_fits {idx : Int} (h : indexFits idx = true) : (BitVec.ofInt 16 idx).toInt = idx := by
  obtain ⟨hlo, hhi⟩ := of_decide_eq_true h
  exact BitVec.toInt_ofInt_eq_self (by decide) hlo (by omega)

theorem indexFits_idxField (cmd : Word) : indexFits (idxField cmd) = true := by
  have hlo : -32768 ≤ idxField cmd := BitVec.le_toInt _
  have hhi : idxField cmd < 32768 := BitVec.toInt_lt
  exact decide_eq_true ⟨hlo, by omega⟩

/-- What the fields of a word spell has its operands in the ranges of R107. -/
theorem fieldsOf_wellFormed {cmd arg : Word} {i : Instr} (h : fieldsOf cmd arg = some i) : i.wellFormed = true := by
  unfold fieldsOf at h
  split at h <;> cases h
  all_goals simp only [Instr.wellFormed, Bool.and_eq_true, indexFits_idxField, countFits_iff, brightnessFits_iff, portFits_iff,
    BitVec.isLt, and_self]

/-! ### From a command to its words -/

/-- A slice that lies above the last part of a word is a slice of the rest. -/
theorem slice_above {h l : Nat} (high : BitVec h) (low : BitVec l) (start len : Nat) :
    (high ++ low).extractLsb' (start + l) len = high.extractLsb' start len := by
  rw [BitVec.extractLsb'_append_eq_of_le (Nat.le_add_left l start), Nat.add_sub_cancel]

/-- The part next to the last one is the slice above it. -/
theorem slice_next {h m l : Nat} (high : BitVec h) (mid : BitVec m) (low : BitVec l) :
    (high ++ mid ++ low).extractLsb' l m = mid := by
  rw [BitVec.extractLsb'_append_eq_of_le le_rfl, Nat.sub_self]
  exact BitVec.extractLsb'_append_eq_right

/-- The opcode of a word packed as an opcode, the reserved bits and the operand bits. -/
theorem opField_packed (op : BitVec 4) {k w : Nat} (hk : k + w = 28) (mid : BitVec k) (x : BitVec w) :
    (op ++ mid ++ x).extractLsb' 28 4 = op := by
  rw [← hk, slice_above]
  exact BitVec.extractLsb'_append_eq_left

/-- The index field of a word whose last part is the index. -/
theorem idxField_packed {idx : Int} (h : indexFits idx = true) (high : BitVec 16) :
    idxField (high ++ BitVec.ofInt 16 idx) = idx :=
  (congrArg BitVec.toInt BitVec.extractLsb'_append_eq_right).trans (toInt_ofInt_of_fits h)

/-- The fields of a command word of format fx (R94). -/
theorem fxWord_fields (op : BitVec 4) {idx : Int} (h : indexFits idx = true) :
    opField (op ++ 0#12 ++ BitVec.ofInt 16 idx) = op ∧ idxField (op ++ 0#12 ++ BitVec.ofInt 16 idx) = idx :=
  ⟨opField_packed op rfl _ _, idxField_packed h _⟩

/-- The fields of SET_BRIGHTNESS's command word (R95). -/
theorem setBrightnessWord_fields {idx : Int} (h : indexFits idx = true) (bri : Nat) :
    opField (Instr.setBrightness idx bri).commandWord = 0x5 ∧ idxField (Instr.setBrightness idx bri).commandWord = idx ∧
      (Instr.setBrightness idx bri).commandWord.extractLsb' 16 7 = BitVec.ofNat 7 bri :=
  ⟨(slice_above _ (BitVec.ofInt 16 idx) 12 4).trans (slice_above _ (BitVec.ofNat 7 bri) 5 4), idxField_packed h _,
    slice_next _ (BitVec.ofNat 7 bri) (BitVec.ofInt 16 idx)⟩

/-- The colour operand holds its bytes where R96 puts them. -/
theorem packColour_slices (red green blue : Byte) :
    (packColour red green blue).extractLsb' 24 8 = 0 ∧ (packColour red green blue).extractLsb' 16 8 = red ∧
      (packColour red green blue).extractLsb' 8 8 = green ∧ (packColour red green blue).extractLsb' 0 8 = blue :=
  ⟨(slice_above _ blue 16 8).trans ((slice_above _ green 8 8).trans BitVec.extractLsb'_append_eq_left),
    (slice_above _ blue 8 8).trans (slice_next 0#8 red green), slice_next _ green blue, BitVec.extractLsb'_append_eq_right⟩

/-- The fields of INIT's command word (R93). -/
theorem initWord_fields (nleds ibri port : Nat) (clk : Word) :
    opField (Instr.init nleds ibri port clk).commandWord = 0x1 ∧
      (Instr.init nleds ibri port clk).commandWord.extractLsb' 0 11 = BitVec.ofNat 11 nleds ∧
      (Instr.init nleds ibri port clk).commandWord.extractLsb' 11 7 = BitVec.ofNat 7 ibri ∧
      (Instr.init nleds ibri port clk).commandWord.extractLsb' 18 4 = BitVec.ofNat 4 port :=
  ⟨(slice_above _ (BitVec.ofNat 11 nleds) 17 4).trans
      ((slice_above _ (BitVec.ofNat 7 ibri) 10 4).trans (slice_above _ (BitVec.ofNat 4 port) 6 4)),
    BitVec.extractLsb'_append_eq_right, slice_next _ (BitVec.ofNat 7 ibri) _,
    (slice_above _ (BitVec.ofNat 11 nleds) 7 4).trans (slice_next _ (BitVec.ofNat 4 port) (BitVec.ofNat 7 ibri))⟩

/-- The fields of a well-formed command's words spell the command. -/
theorem fieldsOf_commandWord {i : Instr} {arg : Word} (h : i.wellFormed = true) (harg : ∀ a, i.argWord = some a → a = arg) :
    fieldsOf i.commandWord arg = some i := by
  unfold fieldsOf
  cases i with
  | nop | close | showFrame | syncUp | syncDown | clear => all_goals rfl
  | init nleds ibri port clk =>
    simp only [Instr.wellFormed, Bool.and_eq_true, countFits_iff, brightnessFits_iff, portFits_iff] at h
    obtain ⟨⟨hn, hb⟩, hp⟩ := h
    obtain rfl : clk = arg := harg _ rfl
    obtain ⟨hop, hnleds, hibri, hport⟩ := initWord_fields nleds ibri port clk
    rw [hop, hnleds, hibri, hport, toNat_ofNat_of_fits hn, toNat_ofNat_of_fits hb, toNat_ofNat_of_fits hp]
    rfl
  | setPixel idx red green blue =>
    obtain rfl : packColour red green blue = arg := harg _ rfl
    obtain ⟨hop, hidx⟩ := fxWord_fields 0x3#4 h
    obtain ⟨_, hred, hgreen, hblue⟩ := packColour_slices red green blue
    rw [Instr.commandWord, hop, hidx, hred, hgreen, hblue]
    rfl
  | getPixel idx =>
    obtain ⟨hop, hidx⟩ := fxWord_fields 0x4#4 h
    rw [Instr.commandWord, hop, hidx]
    rfl
  | setBrightness idx bri =>
    simp only [Instr.wellFormed, Bool.and_eq_true, brightnessFits_iff] at h
    obtain ⟨hi, hb⟩ := h
    obtain ⟨hop, hidx, hbri⟩ := setBrightnessWord_fields hi bri
    rw [hop, hidx, hbri, toNat_ofNat_of_fits hb]
    rfl
  | rotate pos =>
    obtain ⟨hop, hidx⟩ := fxWord_fields 0x9#4 h
    rw [Instr.commandWord, hop, hidx]
    rfl
  | encPrefix bri =>
    have hop : opField (Instr.encPrefix bri).commandWord = 0xB := opField_packed _ rfl 0#21 _
    have hbri : (Instr.encPrefix bri).commandWord.extractLsb' 0 7 = BitVec.ofNat 7 bri := BitVec.extractLsb'_append_eq_right
    rw [hop, hbri, toNat_ofNat_of_fits ((brightnessFits_iff bri).mp h)]
    rfl
  | encEndlen nl =>
    have hop : opField (Instr.encEndlen nl).commandWord = 0xC := opField_packed _ rfl 0#17 _
    have hnl : (Instr.encEndlen nl).commandWord.extractLsb' 0 11 = BitVec.ofNat 11 nl := BitVec.extractLsb'_append_eq_right
    rw [hop, hnl, toNat_ofNat_of_fits ((countFits_iff nl).mp h)]
    rfl

/-- Every command's word spells a row of its own format (the family TableRow). -/
theorem commandWord_matches (i : Instr) : ∃ r ∈ opcodeMap, r.format = i.format ∧ r.matchesWord i.commandWord = true := by
  cases i with
  | nop => exact TableRow.nop
  | init nleds ibri port clk => exact TableRow.init nleds ibri port clk
  | close => exact TableRow.close
  | setPixel idx red green blue => exact TableRow.setPixel idx red green blue
  | getPixel idx => exact TableRow.getPixel idx
  | setBrightness idx bri => exact TableRow.setBrightness idx bri
  | showFrame => exact TableRow.showFrame
  | syncUp => exact TableRow.syncUp
  | syncDown => exact TableRow.syncDown
  | rotate pos => exact TableRow.rotate pos
  | clear => exact TableRow.clear
  | encPrefix bri => exact TableRow.encPrefix bri
  | encEndlen nl => exact TableRow.encEndlen nl

theorem commandWord_resBits (i : Instr) : i.commandWord &&& i.format.resMask = 0 := by
  obtain ⟨r, _, hformat, hmatch⟩ := commandWord_matches i
  exact hformat ▸ ((matchesWord_iff r _).mp hmatch).2

/-- The operand word of a command has no reserved bit set (R96, R103). -/
theorem argWord_resBits {i : Instr} {arg : Word} (harg : ∀ a, i.argWord = some a → a = arg) : arg &&& i.argResMask = 0 := by
  cases i with
  | setPixel idx red green blue =>
    obtain rfl : packColour red green blue = arg := harg _ rfl
    exact (argHigh_iff _).mpr (packColour_slices red green blue).1
  | _ => exact BitVec.and_zero

/-- Decoding undoes encoding: the command word of a well-formed command, with its operand word where it reads one, decodes to it. -/
theorem decode_commandWord {i : Instr} {arg : Word} (h : i.wellFormed = true) (harg : ∀ a, i.argWord = some a → a = arg) :
    decode i.commandWord arg = .ok i :=
  (decode_ok_iff _ _ _).mpr ⟨fieldsOf_commandWord h harg, commandWord_resBits i, argWord_resBits harg⟩

/-- Settles O1, by `decode_commandWord` at the operand word that the encoder gives. -/
theorem decodeOfEncodeIsTheCommand : Obligations.DecodeOfEncodeIsTheCommand := fun i h =>
  decode_commandWord h fun a ha => by rw [encode, ha, Option.getD_some]

/-! ### From words to the command -/

/-- The opcode and the reserved bits next to it, all 0, are the top slice of the word. -/
theorem opcode_append_reserved {cmd m : Word} {op : BitVec 4} {k w : Nat} (hk : 28 = w + k)
    (hm : m.extractLsb' w k = BitVec.allOnes k) (hop : (opField cmd).toNat = op.toNat) (hres : cmd &&& m = 0) :
    op ++ 0#k = cmd.extractLsb' w (4 + k) := by
  rw [← BitVec.eq_of_toNat_eq hop, ← BitVec.ofNat_eq_ofNat, ← slice_eq_zero hm hres]
  exact BitVec.extractLsb'_append_extractLsb'_eq_extractLsb' hk

/-- A word with its reserved bits 0 is its opcode, those bits and its operand bits. -/
theorem packed_word (op : BitVec 4) {cmd m : Word} {k w : Nat} (hk : 28 = w + k) (hm : m.extractLsb' w k = BitVec.allOnes k)
    (hop : (opField cmd).toNat = op.toNat) (hres : cmd &&& m = 0) :
    op ++ 0#k ++ cmd.extractLsb' 0 w = cmd.extractLsb' 0 (4 + k + w) := by
  rw [opcode_append_reserved hk hm hop hres]
  exact BitVec.extractLsb'_append_extractLsb'_eq_extractLsb' (Nat.zero_add w).symm

/-- A command word of format fn (R91) is its opcode. -/
theorem fn_word (op : BitVec 4) {cmd : Word} (hop : (opField cmd).toNat = op.toNat) (hres : cmd &&& Format.fn.resMask = 0) :
    op ++ 0#28 = cmd :=
  (opcode_append_reserved (w := 0) rfl (by decide) hop hres).trans BitVec.extractLsb'_eq_self

/-- A command word of format fi is its opcode and INIT's three fields (R93). -/
theorem fi_word (op : BitVec 4) {cmd : Word} (hop : (opField cmd).toNat = op.toNat) (hres : cmd &&& Format.fi.resMask = 0) :
    op ++ 0#6 ++ cmd.extractLsb' 18 4 ++ cmd.extractLsb' 11 7 ++ cmd.extractLsb' 0 11 = cmd := by
  rw [opcode_append_reserved (w := 22) rfl (by decide) hop hres]
  simp only [BitVec.extractLsb'_append_extractLsb'_eq_extractLsb']
  exact BitVec.extractLsb'_eq_self

/-- A command word of format fx is its opcode and its index (R94). -/
theorem fx_word (op : BitVec 4) {cmd : Word} (hop : (opField cmd).toNat = op.toNat) (hres : cmd &&& Format.fx.resMask = 0) :
    op ++ 0#12 ++ BitVec.ofInt 16 (idxField cmd) = cmd := by
  rw [idxField, BitVec.ofInt_toInt, packed_word op rfl (by decide) hop hres]
  exact BitVec.extractLsb'_eq_self

/-- A command word of format fxb is its opcode, its brightness and its index (R95). -/
theorem fxb_word (op : BitVec 4) {cmd : Word} (hop : (opField cmd).toNat = op.toNat) (hres : cmd &&& Format.fxb.resMask = 0) :
    op ++ 0#5 ++ cmd.extractLsb' 16 7 ++ BitVec.ofInt 16 (idxField cmd) = cmd := by
  rw [idxField, BitVec.ofInt_toInt, opcode_append_reserved (w := 23) rfl (by decide) hop hres]
  simp only [BitVec.extractLsb'_append_extractLsb'_eq_extractLsb']
  exact BitVec.extractLsb'_eq_self

/-- A command word with its reserved bits 0 is the one that the encoder gives for what its fields spell. -/
theorem commandWord_of_fieldsOf {cmd arg : Word} {i : Instr} (h : fieldsOf cmd arg = some i) (hres : cmd &&& i.format.resMask = 0) :
    i.commandWord = cmd := by
  unfold fieldsOf at h
  split at h <;> cases h
  all_goals simp only [Instr.commandWord, BitVec.ofNat_toNat, BitVec.setWidth_eq]
  next hop => exact fn_word 0x0 hop hres
  next hop => exact fi_word 0x1 hop hres
  next hop => exact fn_word 0x2 hop hres
  next hop => exact fx_word 0x3 hop hres
  next hop => exact fx_word 0x4 hop hres
  next hop => exact fxb_word 0x5 hop hres
  next hop => exact fn_word 0x6 hop hres
  next hop => exact fn_word 0x7 hop hres
  next hop => exact fn_word 0x8 hop hres
  next hop => exact fx_word 0x9 hop hres
  next hop => exact fn_word 0xA hop hres
  next hop => exact (packed_word 0xB (m := Format.fb7.resMask) (k := 21) rfl (by decide) hop hres).trans BitVec.extractLsb'_eq_self
  next hop => exact (packed_word 0xC (m := Format.fl.resMask) (k := 17) rfl (by decide) hop hres).trans BitVec.extractLsb'_eq_self

/-- A colour operand without reserved bits is its three bytes (R96, R103). -/
theorem packColour_of_slices {arg : Word} (h : arg &&& 0xFF000000 = 0) :
    packColour (arg.extractLsb' 16 8) (arg.extractLsb' 8 8) (arg.extractLsb' 0 8) = arg := by
  have hhigh : arg.extractLsb' 24 8 = 0#8 := (argHigh_iff arg).mp h
  rw [packColour, ← hhigh]
  simp only [BitVec.extractLsb'_append_extractLsb'_eq_extractLsb']
  exact BitVec.extractLsb'_eq_self

/-- The operand word of what the fields spell is the one they were read from. -/
theorem argWord_of_fieldsOf {cmd arg a : Word} {i : Instr} (h : fieldsOf cmd arg = some i) (hres : arg &&& i.argResMask = 0)
    (ha : i.argWord = some a) : a = arg := by
  unfold fieldsOf at h
  split at h <;> cases h <;> cases ha
  · rfl
  · exact packColour_of_slices hres

/-- Settles O2, part by part: the command word, the operand word and the ranges. -/
theorem encodeOfDecodeIsTheWord : Obligations.EncodeOfDecodeIsTheWord := by
  intro cmd arg i h
  obtain ⟨hfields, hres, harg⟩ := (decode_ok_iff cmd arg i).mp h
  exact ⟨commandWord_of_fieldsOf hfields hres, fun _ => argWord_of_fieldsOf hfields harg, fieldsOf_wellFormed hfields⟩

/-- Settles O3: a match pins the opcode, which no two rows share, and what decodes is the command word of what it decodes to. -/
theorem decodingIsTotalAndUnambiguous : Obligations.DecodingIsTotalAndUnambiguous := by
  intro cmd arg
  refine ⟨fun r hr q hq hmr hmq => ?_, decodes_iff cmd arg, fun i h => ?_⟩
  · obtain ⟨hopr, _⟩ := (matchesWord_iff r cmd).mp hmr
    obtain ⟨hopq, _⟩ := (matchesWord_iff q cmd).mp hmq
    exact row_eq_of_op r hr q hq (hopr.symm.trans hopq)
  · obtain ⟨hword, _, _⟩ := encodeOfDecodeIsTheWord cmd arg i h
    obtain ⟨r, hr, hformat, hmatch⟩ := commandWord_matches i
    obtain ⟨hop, _⟩ := (matchesWord_iff r _).mp hmatch
    exact ⟨r, hr, hword ▸ hmatch, hop.symm, hformat⟩

/-- The operand word is read only under the opcodes of INIT and SET_PIXEL (R92). -/
theorem fieldsOf_arg_irrelevant {cmd : Word} (a b : Word) (hinit : opField cmd ≠ 0x1) (hpixel : opField cmd ≠ 0x3) :
    fieldsOf cmd a = fieldsOf cmd b := by
  unfold fieldsOf
  split
  case h_2 hop => exact absurd (BitVec.eq_of_toNat_eq hop) hinit
  case h_4 hop => exact absurd (BitVec.eq_of_toNat_eq hop) hpixel
  all_goals rfl

/-- Only SET_PIXEL reserves bits of its operand word (R103). -/
theorem argResMask_eq_zero {cmd arg : Word} {i : Instr} (h : fieldsOf cmd arg = some i) (hpixel : opField cmd ≠ 0x3) :
    i.argResMask = 0 := by
  obtain ⟨r, _, hop, _, hmask⟩ := fieldsOf_some h
  rw [hmask, if_neg (hop ▸ hpixel)]

/-- Settles O4: the fields of the other commands do not depend on ARG, and INIT reserves none of its bits. -/
theorem onlyInitAndSetPixelReadArg : Obligations.OnlyInitAndSetPixelReadArg := by
  refine ⟨fun cmd a b hinit hpixel => ?_, fun cmd a b hinit ha => ?_⟩
  · unfold decode
    rw [fieldsOf_arg_irrelevant a b hinit hpixel]
    cases hfields : fieldsOf cmd b with
    | none => rfl
    | some i => simp only [argResMask_eq_zero hfields hpixel, BitVec.ofNat_eq_ofNat, BitVec.and_zero]
  · obtain ⟨hrow, _⟩ := (decodes_iff cmd a).mp ha
    refine (decodes_iff cmd b).mpr ⟨hrow, fun hpixel => ?_⟩
    have hop : (0x1 : BitVec 4) = 0x3 := hinit.symm.trans hpixel
    exact absurd hop (by decide)

/-- Settles O5: each word is decoded. -/
theorem sampleWordsDecodeAsTheSpecSays : Obligations.SampleWordsDecodeAsTheSpecSays :=
  ⟨rfl, rfl, rfl, rfl, rfl, rfl, rfl, rfl, rfl, rfl, rfl, rfl⟩

end Sys2Proof.EncodingProofs
end

section
/-! The step that an accepted command word takes (41_lifecycle.md R130, R133): what it decodes to runs, a reserved word is refused. -/

namespace Sys2Proof.EncodingProofs

open Sys2Proof.Machine Sys2Proof.Safety Sys2Proof.Laws Sys2Proof.StateProofs

/-! ### The first step of an accepted word -/

/-- A run of the model takes its first step and goes on. -/
theorem core_run_succ {s t : State} (h : step s = .next t) (k : Nat) : core.run (k + 1) s = core.run k t := by
  have hstep : core.step s = .next t := h
  simp only [Host.Core.run, hstep]

theorem step_accepted {s : State} {pending : List Input} (hp : s.phase = .accepted) (hm : sequencerMoves s pending) :
    step s = acceptedStep { s with inputs := pending } := by
  rw [step_sequencer hm, sequencerStep]
  simp only [hp]

theorem acceptedStep_of_decode {s : State} {i : Instr} (h : decode s.cmdL s.argL = .ok i) : acceptedStep s = exec i s := by
  rw [acceptedStep, h]

theorem acceptedStep_of_not_decodes {s : State} (h : ¬∃ i, decode s.cmdL s.argL = .ok i) :
    acceptedStep s = .next (refuseIllegal s) := by
  unfold acceptedStep
  split
  · next i hi => exact absurd ⟨i, hi⟩ h
  · rfl

/-- What the refusal of an ILLEGAL word writes while HALT = 0. -/
theorem refuseIllegal_eq {s : State} (h : s.status.halt = false) :
    refuseIllegal s = failedState s .illegal (some (opField s.cmdL).toNat) := by
  rw [refuseIllegal, h]
  rfl

/-- The three ways to be ILLEGAL (R101 to R103): none of them leaves a row of the map to decode by. -/
theorem reserved_not_decodes {cmd arg : Word}
    (h : 0xD ≤ (opField cmd).toNat ∨ (∃ r ∈ opcodeMap, r.op = opField cmd ∧ cmd &&& r.format.resMask ≠ 0) ∨
      (opField cmd = 0x3 ∧ arg.extractLsb' 24 8 ≠ 0)) : ¬∃ i, decode cmd arg = .ok i := by
  rw [decodes_iff]
  rintro ⟨⟨r, hr, hmatch⟩, hpixel⟩
  obtain ⟨hop, hres⟩ := (matchesWord_iff r cmd).mp hmatch
  rcases h with hreserved | ⟨q, hq, hqop, hqres⟩ | ⟨hop3, harg⟩
  · have hlt : ∀ r ∈ opcodeMap, r.op.toNat < 0xD := by decide
    exact absurd (hlt r hr) (Nat.not_lt.mpr (hop ▸ hreserved))
  · exact hqres (row_eq_of_op q hq r hr (hqop.trans hop) ▸ hres)
  · exact harg (hpixel hop3)

/-- Settles O9: a reserved word decodes to no command, so the step is the refusal. -/
theorem reservedWordsFailAsIllegal : Obligations.ReservedWordsFailAsIllegal := by
  intro s pending hp hm hh h
  have hrefused := acceptedStep_of_not_decodes (s := { s with inputs := pending }) (reserved_not_decodes h)
  rw [step_accepted hp hm, hrefused]
  exact congrArg Host.Outcome.next (refuseIllegal_eq hh)

/-- Settles O12, by the checks that stand around every body. -/
theorem everyCommandAnswersANextState : Obligations.EveryCommandAnswersANextState := exec_next

/-! ### The bus writes of a command -/

theorem busWrites_without_arg {i : Instr} (h : i.argWord = none) : busWrites i = [.hostWrite 0x00 4 i.commandWord] := by
  rw [busWrites, commandActions, h]
  rfl

theorem busWrites_with_arg {i : Instr} {a : Word} (h : i.argWord = some a) :
    busWrites i = [.hostWrite 0x04 4 a, .hostWrite 0x00 4 i.commandWord] := by
  rw [busWrites, commandActions, h]
  rfl

/-- The CMD write of a well-formed command to an idle block, whose ARG holds the operand word where the command reads one, latches the
command, and the next turn runs it. -/
theorem commandWrite_latches {s : State} {i : Instr} {rest : List Input} (hw : i.wellFormed = true) (hp : s.phase = .idle)
    (harg : ∀ a, i.argWord = some a → a = s.arg) (h : s.inputs = .hostWrite 0x00 4 i.commandWord :: .turn :: rest) :
    ∃ t, step s = .next t ∧ t.phase = .accepted ∧ t.cmdL = i.commandWord ∧ (∀ a, i.argWord = some a → t.argL = a) ∧ t.fb = s.fb ∧
      t.mb = s.mb ∧ t.status = s.status ∧ step t = exec i { t with inputs := rest } := by
  obtain ⟨_, hstep, _, rfl⟩ := commandWriteIsAccepted s _ _ h (by simp [State.busy, hp])
  refine ⟨_, hstep, rfl, rfl, fun a ha => (harg a ha).symm, rfl, rfl, rfl, ?_⟩
  rw [step_accepted rfl (.inr rfl)]
  exact acceptedStep_of_decode (decode_commandWord hw harg)

/-- Settles O8: the write of ARG, where there is one, leaves the block idle with the operand word in ARG. -/
theorem assembledCommandIsAcceptedAndRun : Obligations.AssembledCommandIsAcceptedAndRun := by
  intro s i rest hw hp hin
  obtain ha | ⟨a, ha⟩ := Option.eq_none_or_eq_some i.argWord
  · rw [busWrites_without_arg ha] at hin ⊢
    obtain ⟨t, hstep, hlatched⟩ := commandWrite_latches hw hp (by simp [ha]) hin
    exact ⟨t, core_run_succ hstep 0, hlatched⟩
  · rw [busWrites_with_arg ha] at hin ⊢
    obtain ⟨hfirst, _⟩ := otherRegisterWrites s 0x04 a _ hin
    obtain ⟨t, hstep, hlatched⟩ := commandWrite_latches (i := i) (rest := rest)
      (s := { s with inputs := .hostWrite 0x00 4 i.commandWord :: .turn :: rest, arg := a, hostAnswer := .written })
      hw hp (by simp [ha]) rfl
    exact ⟨t, (core_run_succ (hfirst rfl) 1).trans (core_run_succ hstep 0), hlatched⟩

end Sys2Proof.EncodingProofs
end

section
/-! The protocol encoder (40_encoder.md R110 to R122): the quantizer, the PREFIX byte, the bytes of a frame, and the two query commands. -/

namespace Sys2Proof.EncoderProofs

open Sys2Proof.Machine Sys2Proof.Safety Sys2Proof.Laws Sys2Proof.StateProofs

/-! ### The frame -/

/-- FRAMEBYTE(k) with the two ranges of zero bytes taken together (R177). -/
theorem frameByte_eq (s : State) (k : Nat) : s.frameByte k = if 4 ≤ k ∧ k < 4 + 4 * s.n then s.fbByte (k - 4) else 0 := by
  unfold State.frameByte
  rw [bufferLength_eq]
  by_cases hstart : k < 4
  · rw [if_pos hstart, if_neg (fun h => Nat.not_le.mpr hstart h.1)]
  · rw [if_neg hstart]
    simp only [Nat.not_lt.mp hstart, true_and]

/-- Settles O26, by the bytes that the frame holds. -/
theorem frameIsTheFrameBytes : Obligations.FrameIsTheFrameBytes := by
  intro s
  refine ⟨frame_length s.fb s.n, rfl, fun k hk => ⟨?_, frameByte_eq s k⟩⟩
  have hlen : k < (frame s.fb s.n).length := (frame_length s.fb s.n).symm ▸ hk
  rw [List.getElem?_eq_getElem hlen, frame_getElem, frameByte_eq]

/-! ### The quantizer and the PREFIX byte -/

/-- Q(b) is at most one half above 31b/100 and less than one half below it: round half up (R110, R111), cleared of fractions. -/
theorem quantize_bounds (b : Nat) : 200 * quantize b ≤ 62 * b + 100 ∧ 62 * b < 200 * quantize b + 100 := by
  unfold quantize
  omega

theorem quantize_le {b : Nat} (h : b ≤ 100) : quantize b ≤ 31 := by
  obtain ⟨hlow, _⟩ := quantize_bounds b
  omega

/-- A tie asks that 100 divides 31b + 50, and 31 is prime to 100 (R111). -/
theorem eq_fifty_of_tie {b : Nat} (h : b ≤ 100) (htie : 200 * quantize b = 62 * b + 100) : b = 50 := by
  omega

/-- The brightness 100q div 31 quantizes to `q`. -/
theorem quantize_surjective {q : Nat} (h : q ≤ 31) : ∃ b, b ≤ 100 ∧ quantize b = q := by
  refine ⟨100 * q / 31, by omega, ?_⟩
  unfold quantize
  omega

/-- A five-bit value under the PREFIX bits 111 (R113). -/
theorem prefixByte_value {b : Nat} (h : b ≤ 100) :
    (prefixByte b).toNat = 0xE0 + quantize b ∧ (prefixByte b &&& 0x1F).toNat = quantize b := by
  have packed : ∀ q, q < 32 → ((BitVec.ofNat 8 q &&& 0x1F) ||| 0xE0).toNat = 0xE0 + q ∧
      (((BitVec.ofNat 8 q &&& 0x1F) ||| 0xE0) &&& 0x1F).toNat = q := by decide
  exact packed _ (Nat.lt_succ_of_le (quantize_le h))

/-- Settles O23, from the bounds of the quantizer and the value of the PREFIX byte. -/
theorem quantizerRoundsToNearest : Obligations.QuantizerRoundsToNearest := by
  refine ⟨fun b hb => ⟨rfl, quantize_le hb, quantize_bounds b⟩, fun b hb => eq_fifty_of_tie hb, rfl, fun q hq => quantize_surjective hq,
    fun b hb => ?_⟩
  obtain ⟨hvalue, hlow⟩ := prefixByte_value hb
  exact ⟨hvalue, prefixByte_top b, hlow⟩

/-! ### The bodies of the query commands -/

/-- A command that passes the checks of 41_lifecycle.md R133 runs its body. -/
theorem exec_runs {i : Instr} {s : State} (hh : s.status.halt = false) (hi : needsInit i = true → s.status.init = true) :
    exec i s = .next (bodyOf i s) := by
  rw [exec_eq_checked]
  cases hn : needsInit i with
  | false => exact checked_free_runs s _ hh
  | true => exact checked_runs s _ hh (hi hn)

/-- A success writes RDATA, STATUS and the phase (41_lifecycle.md R132). -/
theorem complete_eq (rdata : Option Word) (s : State) :
    complete rdata s = { s with rdata := rdata.getD s.rdata, status := doneStatus s, phase := .idle } := rfl

theorem bodyOf_encPrefix {bri : Nat} (h : bri ≤ 100) (s : State) :
    bodyOf (.encPrefix bri) s = complete (some ((prefixByte bri).setWidth 32)) s :=
  if_neg (Nat.not_lt.mpr h)

theorem bodyOf_encPrefix_range {bri : Nat} (h : 100 < bri) (s : State) :
    bodyOf (.encPrefix bri) s = failedState s .range (some bri) := if_pos h

/-- SET_BRIGHTNESS of a pixel in range writes its PREFIX byte (42_pixel.md R158). -/
theorem bodyOf_setBrightness {s : State} {idx : Int} {bri : Nat} (hb : bri ≤ 100) (hidx : 0 ≤ idx ∧ idx < s.n) :
    bodyOf (.setBrightness idx bri) s = complete none (s.writeFb (4 * idx.toNat) (prefixByte bri)) := by
  have hrange : ¬bri > Config.briMax := Nat.not_lt.mpr hb
  simp only [bodyOf, if_neg hrange, if_pos ((indexInRange_iff s idx).mpr hidx), prefixOffset_eq]

/-- Settles O24: the body runs with no INIT, and after SET_BRIGHTNESS, which leaves HALT as it was, it gives the byte written. -/
theorem encPrefixReturnsThePrefixByte : Obligations.EncPrefixReturnsThePrefixByte := by
  intro s bri hh
  have runs : ∀ u : State, u.status.halt = false → exec (.encPrefix bri) u = .next (bodyOf (.encPrefix bri) u) :=
    fun u hu => exec_runs hu nofun
  refine ⟨fun hb => ?_, fun hb => ?_, fun i hb hi hlow hhigh => ?_⟩
  · rw [runs s hh, bodyOf_encPrefix hb, complete_eq]
    rfl
  · rw [runs s hh, bodyOf_encPrefix_range hb]
  · have hset := exec_runs (i := .setBrightness i bri) hh fun _ => hi
    rw [bodyOf_setBrightness hb ⟨hlow, hhigh⟩] at hset
    refine ⟨_, _, hset, runs _ hh, ?_⟩
    rw [bodyOf_encPrefix hb]
    exact congrArg (BitVec.setWidth 32) (read_write_same s.fb _ _).symm

/-- ENDLEN(n) is the least count of 16s that covers `n` (R115). -/
theorem endLength_bounds (n : Nat) : n ≤ 16 * endLength n ∧ 16 * endLength n < n + 16 := by
  unfold endLength ceilDiv
  omega

/-- Settles O25: an 11-bit count's padding length fits RDATA. -/
theorem encEndlenReturnsThePaddingLength : Obligations.EncEndlenReturnsThePaddingLength := by
  intro s nl hh hnl
  obtain ⟨hcovers, hleast⟩ := endLength_bounds nl
  have hrdata : (BitVec.ofNat 32 (endLength nl)).toNat = endLength nl := by
    rw [BitVec.toNat_ofNat]
    exact Nat.mod_eq_of_lt (by omega)
  have hexec : exec (.encEndlen nl) s = .next (complete (some (BitVec.ofNat 32 (endLength nl))) s) := exec_runs hh nofun
  rw [complete_eq] at hexec
  exact ⟨_, hexec, hrdata.symm ▸ hcovers, hrdata.symm ▸ hleast, rfl⟩

end Sys2Proof.EncoderProofs
end

section
/-! NOP, INIT and CLOSE, the step that runs a latched command, and the CMD write that is dropped (41_lifecycle.md R131 to R141). -/

namespace Sys2Proof.LifecycleProofs

open Sys2Proof.Machine Sys2Proof.Safety Sys2Proof.Laws Sys2Proof.StateProofs Sys2Proof.EncodingProofs Sys2Proof.EncoderProofs

/-! ### The release of the transport -/

/-- The selected port of an open transport is released, and no other port changes (R139, R140). -/
theorem port_releaseTransport (s : State) (p : PortIndex) : (releaseTransport s).port p =
    if s.status.opened = true ∧ p = s.portcfg then (s.port p).release [] else s.port p := by
  rw [releaseTransport_eq]
  by_cases ho : s.status.opened = true
  · rw [if_pos ho]
    refine (port_releasePort s [] p).trans ?_
    by_cases hp : p = s.portcfg
    · subst hp; rw [if_pos rfl, if_pos ⟨ho, rfl⟩]
    · rw [if_neg hp, if_neg fun h => hp h.2]
  · rw [if_neg ho, if_neg fun h => ho h.1]

theorem releaseTransport_selected_levels {s : State} (h : s.status.opened = true) :
    ((releaseTransport s).port s.portcfg).levels = Levels.idle := by
  rw [port_releaseTransport, if_pos ⟨h, rfl⟩, release_levels]

/-- When the transport does not open, told of the state before INIT released the old one (R138, R139). -/
theorem openFails_releaseTransport (port : Nat) (clk : Word) (s : State) :
    openFails port clk (releaseTransport s) = true ↔ Config.numPorts ≤ port ∨ clk = 0 ∨ s.faultAt port = true := by
  rw [openFails_iff, releaseTransport_eq_with]
  rfl

/-! ### A successful INIT -/

/-- The bytes of a pixel after INIT: the PREFIX byte at offset 0, and colour 0 (R137). -/
theorem read_initialFb {nleds i k : Nat} (ibri : Nat) (hi : i < nleds) (hk : k < 4) :
    Memory.read (initialFb nleds ibri) (4 * i + k) = if k = 0 then prefixByte ibri else 0 := by
  have channel : (4 * i + k) % Config.bytesPerPixel = k := (Nat.mul_add_mod 4 i k).trans (Nat.mod_eq_of_lt hk)
  rw [initialFb, read_tabulate, bufferLength_eq, if_pos (by omega), channel]
  rfl

/-- INIT constructs when none of its three checks fails (R135). -/
theorem initBody_constructs {s : State} {nleds ibri port : Nat} {clk : Word} (hn : nleds ≤ 1024)
    (hopen : ¬(Config.numPorts ≤ port ∨ clk = 0 ∨ s.faultAt port = true)) (hb : ibri ≤ 100) :
    initBody nleds ibri port clk s = complete none (construct nleds ibri port clk (releaseTransport s)) := by
  rw [← openFails_releaseTransport] at hopen
  have hcount : ¬nleds > Config.maxLeds := Nat.not_lt.mpr hn
  have hrange : ¬ibri > Config.briMax := Nat.not_lt.mpr hb
  simp only [initBody, if_neg hcount, if_neg hopen, if_neg hrange]

/-- The whole effect of a successful INIT (R137, R138). -/
theorem complete_construct_eq (nleds ibri port : Nat) (clk : Word) (s : State) :
    complete none (construct nleds ibri port clk (releaseTransport s)) = { s with
      nleds := BitVec.ofNat 11 nleds, portcfg := BitVec.ofNat 4 port, clkhz := clk, fb := initialFb nleds ibri,
      mb := Memory.tabulate (bufferLength nleds) (Config.mirrorInit s.draws),
      status := { doneStatus s with init := true, opened := true }, ports := (releaseTransport s).ports,
      phase := .idle, draws := s.draws + 1 } := by
  rw [releaseTransport_eq_with]
  rfl

/-- Settles O14: the checks pass, so INIT constructs; a port below NUM_PORTS fits PORTCFG, and a count up to 1024 fits NLEDS. -/
theorem initConstructsTheConfiguration : Obligations.InitConstructsTheConfiguration := by
  intro s nleds ibri port clk hh hn hport hclk hfault hb
  have hopen : ¬(Config.numPorts ≤ port ∨ clk = 0 ∨ s.faultAt port = true) := by
    rintro (h | h | h)
    · exact Nat.not_le.mpr hport h
    · exact hclk h
    · exact Bool.false_ne_true (hfault.symm.trans h)
  have hexec : exec (.init nleds ibri port clk) s = .next (initBody nleds ibri port clk s) := exec_runs hh nofun
  rw [initBody_constructs hn hopen hb, complete_construct_eq] at hexec
  have hport16 : port < 16 := Nat.lt_of_lt_of_le hport numPorts_range.2
  refine ⟨_, hexec, ?_, ?_, rfl, fun i hi => ?_, fun j hj => ?_, rfl, port_releaseTransport s, rfl⟩
  · exact (BitVec.toNat_ofNat _ _).trans (Nat.mod_eq_of_lt (by omega))
  · exact (BitVec.toNat_ofNat _ _).trans (Nat.mod_eq_of_lt hport16)
  · exact ⟨read_initialFb ibri hi (k := 0) (by decide), read_initialFb ibri hi (k := 1) (by decide),
      read_initialFb ibri hi (k := 2) (by decide), read_initialFb ibri hi (k := 3) (by decide)⟩
  · exact (read_tabulate _ _ j).trans (if_pos hj)

/-! ### A failed INIT -/

/-- The cause and the `info` of a failed INIT: CONFIG before TRANSPORT before RANGE (R135, 60_exceptions.md R251). -/
def initFailure (nleds ibri port : Nat) (clk : Word) (s : State) : Cause × Int :=
  if 1024 < nleds then (.config, nleds)
  else if Config.numPorts ≤ port ∨ clk = 0 ∨ s.faultAt port = true then (.transport, port)
  else (.range, ibri)

/-- INIT fails with the first of its three checks that fails. -/
theorem initBody_fails {s : State} {nleds ibri port : Nat} {clk : Word}
    (h : 1024 < nleds ∨ (Config.numPorts ≤ port ∨ clk = 0 ∨ s.faultAt port = true) ∨ 100 < ibri) :
    initBody nleds ibri port clk s =
      failInit (initFailure nleds ibri port clk s).1 (initFailure nleds ibri port clk s).2 (releaseTransport s) := by
  simp only [initBody, initFailure]
  by_cases hn : 1024 < nleds
  · rw [if_pos hn]; exact if_pos hn
  rw [if_neg hn]
  refine (if_neg hn).trans ?_
  by_cases hopen : Config.numPorts ≤ port ∨ clk = 0 ∨ s.faultAt port = true
  · rw [if_pos hopen, if_pos ((openFails_releaseTransport port clk s).mpr hopen)]
  rw [if_neg hopen, if_neg (mt (openFails_releaseTransport port clk s).mp hopen)]
  exact if_pos ((h.resolve_left hn).resolve_left hopen)

/-- The whole effect of a failed INIT (R141). -/
theorem failInit_releaseTransport_eq (c : Cause) (info : Int) (s : State) :
    failInit c info (releaseTransport s) = { s with
      status := { failedStatus s c with init := false, opened := false, halt := true }, nleds := 0, portcfg := 0, clkhz := 0,
      ports := (failInit c info (releaseTransport s)).ports, phase := .idle, faultLog := loggedFault s c (some info) } := by
  rw [releaseTransport_eq_with]
  rfl

/-- Settles O15: a command starts with every port idle, and neither release of a failed INIT disturbs that. -/
theorem initFailuresAreFatal : Obligations.InitFailuresAreFatal := by
  intro s nleds ibri port clk hh hp hw h
  have hexec : exec (.init nleds ibri port clk) s = .next (initBody nleds ibri port clk s) := exec_runs hh nofun
  have idle : allIdle (releaseTransport s) := allIdle_releaseTransport (allIdle_of_accepted hw hp)
  rcases hfailure : initFailure nleds ibri port clk s with ⟨c, info⟩
  rw [initBody_fails h, hfailure, failInit_releaseTransport_eq] at hexec
  exact ⟨_, c, info, hexec, hfailure.symm, rfl, rfl, rfl, rfl, allIdle_failInit c info idle, rfl⟩

/-! ### NOP and CLOSE -/

/-- Settles O13: NOP's body is the success of a command that answers nothing. -/
theorem nopOnlyUpdatesStatus : Obligations.NopOnlyUpdatesStatus := by
  intro s hh
  have hexec : exec .nop s = .next (complete none s) := exec_runs hh nofun
  rw [hexec, complete_eq]
  rfl

/-- The whole effect of CLOSE (R140). -/
theorem complete_releaseTransport_eq (s : State) : complete none (releaseTransport s) =
    { s with status := { doneStatus s with opened := false }, ports := (releaseTransport s).ports, phase := .idle } := by
  rw [releaseTransport_eq_with]
  rfl

/-- Settles O16, from the release of the transport. -/
theorem closeReleasesTheTransport : Obligations.CloseReleasesTheTransport := by
  intro s hh hi
  have hexec : exec .close s = .next (complete none (releaseTransport s)) := exec_runs hh fun _ => hi
  rw [complete_releaseTransport_eq] at hexec
  exact ⟨_, hexec, rfl, port_releaseTransport s, releaseTransport_selected_levels, rfl⟩

/-! ### The latched command -/

/-- The sequencer's move in phase ACCEPTED runs the command that CMD_L and ARG_L spell (R133). -/
theorem step_runs_decoded {s : State} {i : Instr} {pending : List Input} (hp : s.phase = .accepted)
    (hd : decode s.cmdL s.argL = .ok i) (hm : sequencerMoves s pending) : step s = exec i { s with inputs := pending } :=
  (step_accepted hp hm).trans (acceptedStep_of_decode (s := { s with inputs := pending }) hd)

/-- Settles O7, for each of the two ways that the sequencer comes to move. -/
theorem stepRunsTheDecodedCommand : Obligations.StepRunsTheDecodedCommand := by
  intro s i hp hd
  refine ⟨fun hin => ?_, fun rest hin => step_runs_decoded hp hd (.inr hin)⟩
  have hstep := step_runs_decoded hp hd (.inl ⟨hin, rfl⟩)
  rwa [← hin] at hstep

/-- Settles O43: an admitted write of CMD with BUSY = 1 is the overrun alone. -/
theorem commandWriteWhileBusyIsDropped : Obligations.CommandWriteWhileBusyIsDropped := by
  intro s v rest h hb
  have hb' : State.busy { s with inputs := rest } = true := hb
  rw [step_write (r := .cmd) rfl h, writeReg, writeCmd, if_pos hb']
  rfl

end Sys2Proof.LifecycleProofs
end

section
/-! The pixel commands SET_PIXEL, GET_PIXEL and SET_BRIGHTNESS (42_pixel.md R150 to R159). -/

namespace Sys2Proof.PixelProofs

open Sys2Proof.Machine Sys2Proof.Safety Sys2Proof.Laws Sys2Proof.StateProofs Sys2Proof.EncodingProofs Sys2Proof.EncoderProofs

/-! ### The bytes of a colour -/

theorem fbByte_writeFb (s : State) (j k : Nat) (v : Byte) : (s.writeFb j v).fbByte k = if k = j then v else s.fbByte k :=
  read_write s.fb j k v

/-- The three offsets of a colour are distinct, so the order in which its bytes are written does not show (R150). -/
theorem fbByte_writeColour (i : Nat) (red green blue : Byte) (s : State) (j : Nat) : (writeColour i red green blue s).fbByte j =
    if j = 4 * i + 1 then blue else if j = 4 * i + 2 then green else if j = 4 * i + 3 then red else s.fbByte j := by
  simp only [writeColour, fbByte_writeFb, channelOffset_eq, chBlue, chGreen, chRed]
  by_cases hb : j = 4 * i + 1
  · subst hb; simp
  by_cases hg : j = 4 * i + 2
  · subst hg; simp
  · simp only [if_neg hb, if_neg hg]

theorem readColour_writeColour_same (i : Nat) (red green blue : Byte) (s : State) :
    readColour i (writeColour i red green blue s) = packColour red green blue := by
  simp [readColour, fbByte_writeColour, channelOffset_eq, chBlue, chGreen, chRed]

/-- The colour bytes of two pixels lie at different offsets (20_memory.md R68). -/
theorem readColour_writeColour_other {i k : Nat} (h : k ≠ i) (red green blue : Byte) (s : State) :
    readColour i (writeColour k red green blue s) = readColour i s := by
  have apart : ∀ c, 1 ≤ c → c ≤ 3 →
      (writeColour k red green blue s).fbByte (channelOffset i c) = s.fbByte (channelOffset i c) := by
    intro c hlow hhigh
    rw [channelOffset_eq, fbByte_writeColour, if_neg (by omega), if_neg (by omega), if_neg (by omega)]
  rw [readColour, apart chRed (by decide) (by decide), apart chGreen (by decide) (by decide), apart chBlue (by decide) (by decide)]
  rfl

/-! ### The bodies, by the index -/

theorem not_indexInRange {s : State} {idx : Int} (h : idx < 0 ∨ (s.n : Int) ≤ idx) : ¬s.indexInRange idx = true := by
  rw [indexInRange_iff]
  omega

/-- SET_PIXEL of a pixel in range writes its colour (R150). -/
theorem bodyOf_setPixel {s : State} {idx : Int} (h : 0 ≤ idx ∧ idx < s.n) (red green blue : Byte) :
    bodyOf (.setPixel idx red green blue) s = complete none (writeColour idx.toNat red green blue s) := by
  simp only [bodyOf, if_pos ((indexInRange_iff s idx).mpr h)]

/-- SET_PIXEL of any other index succeeds and writes nothing (R152). -/
theorem bodyOf_setPixel_outOfRange {s : State} {idx : Int} (h : idx < 0 ∨ (s.n : Int) ≤ idx) (red green blue : Byte) :
    bodyOf (.setPixel idx red green blue) s = complete none s := by
  simp only [bodyOf, if_neg (not_indexInRange h)]

/-- GET_PIXEL of a pixel in range answers its colour (R154, R155). -/
theorem bodyOf_getPixel {s : State} {idx : Int} (h : 0 ≤ idx ∧ idx < s.n) :
    bodyOf (.getPixel idx) s = complete (some (readColour idx.toNat s)) s :=
  if_pos ((indexInRange_iff s idx).mpr h)

/-- GET_PIXEL of any other index fails with INDEX (R156). -/
theorem bodyOf_getPixel_outOfRange {s : State} {idx : Int} (h : idx < 0 ∨ (s.n : Int) ≤ idx) :
    bodyOf (.getPixel idx) s = failedState s .index (some idx) :=
  if_neg (not_indexInRange h)

/-- The RANGE check of SET_BRIGHTNESS comes before its index (R157). -/
theorem bodyOf_setBrightness_range {bri : Nat} (h : 100 < bri) (idx : Int) (s : State) :
    bodyOf (.setBrightness idx bri) s = failedState s .range (some bri) :=
  if_pos h

/-- SET_BRIGHTNESS of an index out of range succeeds and writes nothing (R159). -/
theorem bodyOf_setBrightness_outOfRange {s : State} {idx : Int} {bri : Nat} (hb : bri ≤ 100) (h : idx < 0 ∨ (s.n : Int) ≤ idx) :
    bodyOf (.setBrightness idx bri) s = complete none s := by
  have hrange : ¬bri > Config.briMax := Nat.not_lt.mpr hb
  simp only [bodyOf, if_neg hrange, if_neg (not_indexInRange h)]

/-! ### One command -/

/-- Settles O17, by the index: a colour written, or nothing. -/
theorem setPixelWritesItsThreeBytes : Obligations.SetPixelWritesItsThreeBytes := by
  intro s idx red green blue hh hi
  have hexec := exec_runs (i := .setPixel idx red green blue) hh fun _ => hi
  refine ⟨fun h => ?_, fun h => ?_⟩
  · rw [bodyOf_setPixel h] at hexec
    exact ⟨_, hexec, fbByte_writeColour idx.toNat red green blue s, rfl⟩
  · rw [hexec, bodyOf_setPixel_outOfRange h, complete_eq]
    rfl

/-- Settles O18, from the slices of a packed colour. -/
theorem getPixelReturnsTheColour : Obligations.GetPixelReturnsTheColour := by
  intro s idx hh hi hlow hhigh
  have hexec := exec_runs (i := .getPixel idx) hh fun _ => hi
  rw [bodyOf_getPixel ⟨hlow, hhigh⟩] at hexec
  obtain ⟨hzero, hred, hgreen, hblue⟩ := packColour_slices (s.fbByte (4 * idx.toNat + 3)) (s.fbByte (4 * idx.toNat + 2))
    (s.fbByte (4 * idx.toNat + 1))
  exact ⟨_, hexec, hzero, hred, hgreen, hblue, rfl⟩

/-- Settles O19, from the body's failure, which is not fatal (60_exceptions.md R243). -/
theorem getPixelOutOfRangeFailsWithIndex : Obligations.GetPixelOutOfRangeFailsWithIndex := by
  intro s idx hh hi h
  rw [exec_runs hh fun _ => hi, bodyOf_getPixel_outOfRange h]

/-- Settles O21, from the PREFIX byte's value and the one write. -/
theorem setBrightnessWritesThePrefixByte : Obligations.SetBrightnessWritesThePrefixByte := by
  intro s idx bri hh hi hb hlow hhigh
  have hexec := exec_runs (i := .setBrightness idx bri) hh fun _ => hi
  rw [bodyOf_setBrightness hb ⟨hlow, hhigh⟩] at hexec
  obtain ⟨hvalue, _⟩ := prefixByte_value hb
  exact ⟨_, hexec, fun j => fbByte_writeFb s (4 * idx.toNat) j (prefixByte bri), hvalue ▸ Nat.le_add_right _ _, rfl⟩

/-- Settles O22, by the order of the two checks. -/
theorem setBrightnessRangeAndOutOfRangeIndex : Obligations.SetBrightnessRangeAndOutOfRangeIndex := by
  intro s idx bri hh hi
  rw [exec_runs hh fun _ => hi]
  refine ⟨fun h => ?_, fun hb h => ?_⟩
  · rw [bodyOf_setBrightness_range h]
  · rw [bodyOf_setBrightness_outOfRange hb h, complete_eq]
    rfl

/-! ### Two SET_PIXELs and a GET_PIXEL -/

/-- SET_PIXEL leaves what the next command's checks read: HALT, INIT and N. -/
theorem bodyOf_setPixel_keeps (idx : Int) (red green blue : Byte) (s : State) :
    (bodyOf (.setPixel idx red green blue) s).status.halt = s.status.halt ∧
      (bodyOf (.setPixel idx red green blue) s).status.init = s.status.init ∧
      (bodyOf (.setPixel idx red green blue) s).n = s.n := by
  have keeps : KeepsPorts s (bodyOf (.setPixel idx red green blue) s) := bodyOf_keepsPorts s rfl
  exact ⟨keeps.halt, keeps.init, congrArg BitVec.toNat keeps.nleds⟩

theorem readColour_setPixel_same {s : State} {i : Int} (h : 0 ≤ i ∧ i < s.n) (red green blue : Byte) :
    readColour i.toNat (bodyOf (.setPixel i red green blue) s) = packColour red green blue := by
  rw [bodyOf_setPixel h]
  exact readColour_writeColour_same i.toNat red green blue s

/-- SET_PIXEL of another index, in range or not, leaves the colour of pixel `i`. -/
theorem readColour_setPixel_other {i k : Int} (hi : 0 ≤ i) (hk : k ≠ i) (red green blue : Byte) (s : State) :
    readColour i.toNat (bodyOf (.setPixel k red green blue) s) = readColour i.toNat s := by
  by_cases h : 0 ≤ k ∧ k < s.n
  · have apart : k.toNat ≠ i.toNat := by omega
    rw [bodyOf_setPixel h]
    exact readColour_writeColour_other apart red green blue s
  · rw [bodyOf_setPixel_outOfRange (by omega)]
    rfl

/-- Settles O20: the second SET_PIXEL leaves the colour that the first one wrote, and both leave the checks of the next command as they
were. -/
theorem getPixelAfterSetPixel : Obligations.GetPixelAfterSetPixel := by
  intro s i k r g b r' g' b' hh hi hlow hhigh hne
  obtain ⟨hhT, hiT, hnT⟩ := bodyOf_setPixel_keeps i r g b s
  obtain ⟨hhU, hiU, hnU⟩ := bodyOf_setPixel_keeps k r' g' b' (bodyOf (.setPixel i r g b) s)
  refine ⟨_, _, _, exec_runs hh fun _ => hi, exec_runs (hhT.trans hh) fun _ => hiT.trans hi,
    exec_runs ((hhU.trans hhT).trans hh) fun _ => (hiU.trans hiT).trans hi, ?_⟩
  rw [bodyOf_getPixel ⟨hlow, (hnU.trans hnT).symm ▸ hhigh⟩]
  refine ⟨?_, rfl⟩
  calc (complete (some (readColour i.toNat _)) _).rdata
    _ = readColour i.toNat (bodyOf (.setPixel k r' g' b') (bodyOf (.setPixel i r g b) s)) := rfl
    _ = readColour i.toNat (bodyOf (.setPixel i r g b) s) := readColour_setPixel_other hlow hne r' g' b' _
    _ = packColour r g b := readColour_setPixel_same ⟨hlow, hhigh⟩ r g b

end Sys2Proof.PixelProofs
end

section
/-! SHOW and the frame serializer (43_serializer.md R170 to R187): the first step, a serializer step, and the run that sends one frame. -/

namespace Sys2Proof.SerializerProofs

open Sys2Proof.Machine Sys2Proof.Safety Sys2Proof.Laws Sys2Proof.StateProofs Sys2Proof.EncodingProofs Sys2Proof.EncoderProofs
  Sys2Proof.LifecycleProofs

/-! ### Ports -/

/-- The release of a port whose CS_n is 0 ends the frame in progress (43_serializer.md R182). -/
theorem release_ends_frame {p : Port} (h : p.levels.csN = false) (cut : List Bool) :
    p.release cut = ⟨Levels.idle, [], p.frames ++ [⟨p.live, cut⟩]⟩ := by
  simp [Port.release, h]

/-- A second release of a port changes nothing. -/
theorem release_release (p : Port) (cut cut' : List Bool) : (p.release cut).release cut' = p.release cut :=
  release_idle _ _ (release_levels p cut) (release_live p cut)

/-- The last byte and the end of its frame. -/
theorem emit_release (p : Port) (b : Byte) : (p.emit b).release [] = ⟨Levels.idle, [], p.frames ++ [⟨p.live ++ [b], []⟩]⟩ := by
  rw [emit_eq, release_ends_frame rfl]

theorem sendByte_portcfg (k : Nat) (s : State) : (sendByte k s).portcfg = s.portcfg := rfl

/-- The ports after the last byte of a frame: the selected one has sent it and is idle. -/
theorem port_sendLast (s : State) (k : Nat) (p : PortIndex) : (complete none ((sendByte k s).releasePort [])).port p =
    if p = s.portcfg then ((s.port s.portcfg).emit (s.frameByte k)).release [] else s.port p := by
  rw [port_complete, port_releasePort, sendByte_portcfg, port_sendByte, port_sendByte, if_pos rfl]
  by_cases hp : p = s.portcfg
  · rw [if_pos hp, if_pos hp]
  · rw [if_neg hp, if_neg hp, if_neg hp]

/-- The ports after a frame was cut off: the selected one is released, and that the failure is fatal does not release it further. -/
theorem port_transportFail (s : State) (k : Nat) (p : PortIndex) : (transportFail k s).port p =
    if p = s.portcfg then (s.port s.portcfg).release (s.cutBits (s.frameByte k)) else s.port p := by
  have first := port_releasePort s (s.cutBits (s.frameByte k))
  rw [transportFail, port_raise, if_pos rfl, port_releasePort, port_drawn, port_drawn, first, first, drawn_portcfg,
    releasePort_portcfg, if_pos rfl, release_release]
  by_cases hp : p = s.portcfg
  · rw [if_pos hp, if_pos hp]
  · rw [if_neg hp, if_neg hp]

/-! ### The first step of SHOW -/

theorem bodyOf_showFrame_open {s : State} (h : s.status.opened = true) :
    bodyOf .showFrame s = (s.modifyPort s.portcfg Port.select).enter (.showing 0) :=
  if_pos h

theorem bodyOf_showFrame_closed {s : State} (h : s.status.opened = false) :
    bodyOf .showFrame s = raise .transport true (portInfo s) s :=
  if_neg (by simp [h])

/-- SHOW's first step with OPEN = 1 selects the port (43_serializer.md R176). -/
theorem show_selects {s : State} (hh : s.status.halt = false) (hi : s.status.init = true) (hopen : s.status.opened = true) :
    ∃ t, exec .showFrame s = .next t ∧
      (∀ p, t.port p =
        if p = s.portcfg then ⟨⟨(s.port p).levels.sclk, (s.port p).levels.sdo, false⟩, [], (s.port p).frames⟩ else s.port p) ∧
      t = { s with ports := t.ports, phase := .showing 0 } := by
  have hexec := exec_runs (i := .showFrame) hh fun _ => hi
  rw [bodyOf_showFrame_open hopen] at hexec
  refine ⟨_, hexec, fun p => ?_, rfl⟩
  rw [port_enter, port_modifyPort]
  split
  · next hsel => rw [hsel]; rfl
  · rfl

/-- Settles O28: the fatal failure releases the selected port, and a port that is idle is left as it is by that. -/
theorem showAfterCloseIsFatal : Obligations.ShowAfterCloseIsFatal := by
  intro s hh hi hclosed hidle
  obtain ⟨hlevels, hlive⟩ := hidle
  have hexec := exec_runs (i := .showFrame) hh fun _ => hi
  rw [bodyOf_showFrame_closed hclosed] at hexec
  refine ⟨_, hexec, fun p => ?_, rfl⟩
  rw [port_raise, if_pos rfl, port_releasePort, release_idle _ _ hlevels hlive]
  split
  · next hp => rw [hp]
  · rfl

/-! ### A serializer step -/

theorem step_showing {s : State} {k : Nat} {pending : List Input} (hp : s.phase = .showing k) (hm : sequencerMoves s pending) :
    step s = serializerStep k { s with inputs := pending } := by
  rw [step_sequencer hm, sequencerStep]
  simp only [hp]

theorem serializerStep_cut {s : State} {k : Nat} (hk : k < frameLength s.n) (hf : s.faultAt s.portcfg.toNat = true) :
    serializerStep k s = .next (transportFail k s) := by
  rw [serializerStep, if_pos hk, if_pos hf]

theorem serializerStep_last {s : State} {k : Nat} (hk : k + 1 = frameLength s.n) (hf : s.faultAt s.portcfg.toNat = false) :
    serializerStep k s = .next (complete none ((sendByte k s).releasePort [])) := by
  rw [serializerStep, if_pos (by omega), hf, if_neg Bool.false_ne_true, if_pos hk]

theorem serializerStep_more {s : State} {k : Nat} (hk : k + 1 < frameLength s.n) (hf : s.faultAt s.portcfg.toNat = false) :
    serializerStep k s = .next ((sendByte k s).enter (.showing (k + 1))) := by
  rw [serializerStep, if_pos (by omega), hf, if_neg Bool.false_ne_true, if_neg (by omega)]

/-- A serializer step that is not the last (43_serializer.md R176). -/
theorem step_sends {s : State} {k : Nat} {pending : List Input} (hm : sequencerMoves s pending) (hp : s.phase = .showing k)
    (hk : k + 1 < frameLength s.n) (hf : s.faultAt s.portcfg.toNat = false) :
    ∃ t, step s = .next t ∧ (∀ p, p ≠ s.portcfg → t.port p = s.port p) ∧
      t.port s.portcfg =
        ⟨⟨false, (s.frameByte k).getLsbD 0, false⟩, (s.port s.portcfg).live ++ [s.frameByte k], (s.port s.portcfg).frames⟩ ∧
      t = { s with inputs := pending, ports := t.ports, phase := .showing (k + 1) } := by
  refine ⟨_, (step_showing hp hm).trans (serializerStep_more hk hf), fun p hne => ?_, ?_, rfl⟩
  · exact (port_sendByte _ k p).trans (if_neg hne)
  · exact (port_sendByte _ k s.portcfg).trans ((if_pos rfl).trans (emit_eq _ _))

/-- The serializer step of the last byte (43_serializer.md R176, R182). -/
theorem step_sendsLast {s : State} {k : Nat} {pending : List Input} (hm : sequencerMoves s pending) (hp : s.phase = .showing k)
    (hk : k + 1 = frameLength s.n) (hf : s.faultAt s.portcfg.toNat = false) :
    ∃ t, step s = .next t ∧ (∀ p, p ≠ s.portcfg → t.port p = s.port p) ∧
      t.port s.portcfg =
        ⟨Levels.idle, [], (s.port s.portcfg).frames ++ [⟨(s.port s.portcfg).live ++ [s.frameByte k], []⟩]⟩ ∧
      t = { s with inputs := pending, status := doneStatus s, ports := t.ports, phase := .idle } := by
  refine ⟨_, (step_showing hp hm).trans (serializerStep_last hk hf), fun p hne => ?_, ?_, rfl⟩
  · exact (port_sendLast _ k p).trans (if_neg hne)
  · exact (port_sendLast _ k s.portcfg).trans ((if_pos rfl).trans (emit_release _ _))

/-- Settles O27: SHOW's body selects the port, and a serializer step is one that sends its byte or the last one. -/
theorem showSendsOneByteAStep : Obligations.ShowSendsOneByteAStep := by
  refine ⟨fun _ => show_selects, fun s k pending hm hp hk hf => ?_⟩
  by_cases hlast : k + 1 = frameLength s.n
  · simp only [if_pos hlast]
    exact step_sendsLast hm hp hlast hf
  · simp only [if_neg hlast]
    exact step_sends hm hp (Nat.lt_of_le_of_ne hk hlast) hf

/-- Settles O29: the step is `transportFail`, and at most 7 leading bits are drawn. -/
theorem portFaultEndsTheFrame : Obligations.PortFaultEndsTheFrame := by
  intro s k pending hm hp hk hf hsel
  refine ⟨_, (Config.partialBits s.draws).val, (step_showing hp hm).trans (serializerStep_cut hk hf),
    Nat.le_of_lt_succ (Config.partialBits s.draws).isLt, fun p hne => ?_, ?_, rfl⟩
  · exact (port_transportFail _ k p).trans (if_neg hne)
  · exact (port_transportFail _ k s.portcfg).trans ((if_pos rfl).trans (release_ends_frame hsel _))

/-! ### The run of a SHOW -/

theorem frameLength_pos (n : Nat) : 0 < frameLength n := by
  unfold frameLength
  omega

/-- A run of the model that answered goes on by one step. -/
theorem core_run_step {s u t : State} {m : Nat} (hrun : core.run m s = .next u) (h : step u = .next t) :
    core.run (m + 1) s = .next t := by
  induction m generalizing s with
  | zero =>
    cases hrun
    exact core_run_succ h 0
  | succ m ih =>
    cases hs : core.step s with
    | next s' =>
      rw [core_run_succ hs] at hrun ⊢
      exact ih hrun
    | fault r | refused r => all_goals simp [Host.Core.run, hs] at hrun

/-- `u` comes from `s` by the start of a SHOW and `k` bytes sent: the selected port carries the first `k` bytes of FRAME(FB, N), and
nothing else differs but the phase. -/
structure HasSent (s : State) (k : Nat) (u : State) : Prop where
  rest : ∃ ports, u = { s with ports := ports, phase := .showing k }
  others : ∀ p, p ≠ s.portcfg → u.port p = s.port p
  live : (u.port s.portcfg).live = (frame s.fb s.n).take k
  frames : (u.port s.portcfg).frames = (s.port s.portcfg).frames

/-- SHOW's first step leaves a frame with nothing sent. -/
theorem exec_showFrame_hasSent {s : State} (hh : s.status.halt = false) (hi : s.status.init = true) (ho : s.status.opened = true) :
    ∃ u, exec .showFrame s = .next u ∧ HasSent s 0 u := by
  obtain ⟨u, hexec, hports, hrest⟩ := show_selects hh hi ho
  have selected := (hports s.portcfg).trans (if_pos rfl)
  exact ⟨u, hexec, ⟨_, hrest⟩, fun p hne => (hports p).trans (if_neg hne), by rw [selected]; rfl, by rw [selected]⟩

section
variable {s u : State} {k : Nat} (hin : s.inputs = []) (hf : s.faultAt s.portcfg.toNat = false)
include hin hf

/-- A byte sent that is not the last. -/
theorem hasSent_step (h : HasSent s k u) (hk : k + 1 < frameLength s.n) : ∃ v, step u = .next v ∧ HasSent s (k + 1) v := by
  obtain ⟨⟨ports, rfl⟩, hothers, hlive, hframes⟩ := h
  obtain ⟨v, hstep, hother, hport, hrest⟩ :=
    step_sends (s := { s with ports := ports, phase := .showing k }) (.inl ⟨hin, rfl⟩) rfl hk hf
  refine ⟨v, hstep, ⟨v.ports, hrest.trans (by rw [← hin])⟩, fun p hne => (hother p hne).trans (hothers p hne), ?_,
    (congrArg Port.frames hport).trans hframes⟩
  rw [← frame_take_succ s k (Nat.lt_of_succ_lt hk), ← hlive]
  exact congrArg Port.live hport

/-- The last byte sent: the whole frame stands on the port as one frame, and SHOW has completed. -/
theorem hasSent_last (h : HasSent s k u) (hk : k + 1 = frameLength s.n) :
    ∃ t, step u = .next t ∧ (∀ p, p ≠ s.portcfg → t.port p = s.port p) ∧
      t.port s.portcfg = ⟨Levels.idle, [], (s.port s.portcfg).frames ++ [⟨frame s.fb s.n, []⟩]⟩ ∧
      t = { s with status := doneStatus s, ports := t.ports, phase := .idle } := by
  obtain ⟨⟨ports, rfl⟩, hothers, hlive, hframes⟩ := h
  have hlt : k < frameLength s.n := hk ▸ Nat.lt_succ_self k
  obtain ⟨t, hstep, hother, hport, hrest⟩ :=
    step_sendsLast (s := { s with ports := ports, phase := .showing k }) (.inl ⟨hin, rfl⟩) rfl hk hf
  have whole : (frame s.fb s.n).take k ++ [s.frameByte k] = frame s.fb s.n := by
    rw [frame_take_succ s k hlt, hk, ← frame_length s.fb s.n, List.take_length]
  rw [hframes, hlive] at hport
  refine ⟨t, hstep, fun p hne => (hother p hne).trans (hothers p hne), ?_, hrest.trans (by rw [← hin]; rfl)⟩
  rw [← whole]
  exact hport

/-- The run of a SHOW, from the step that starts it. -/
theorem run_hasSent {v : State} (hstart : step s = .next v) (hv : HasSent s 0 v) :
    ∀ k, k < frameLength s.n → ∃ u, core.run (k + 1) s = .next u ∧ HasSent s k u := by
  intro k
  induction k with
  | zero => exact fun _ => ⟨v, core_run_succ hstart 0, hv⟩
  | succ k ih =>
    intro hk
    obtain ⟨u, hrun, hu⟩ := ih (Nat.lt_of_succ_lt hk)
    obtain ⟨w, hstep, hw⟩ := hasSent_step hin hf hu hk
    exact ⟨w, core_run_step hrun hstep, hw⟩

end

/-- Settles O30: after the first step k more have sent the first k bytes of the frame, by induction on k; the last byte's step ends it. -/
theorem showSendsExactlyTheFrame : Obligations.ShowSendsExactlyTheFrame := by
  intro s hp hcmd hin hh hi ho hf
  have hdecode : decode s.cmdL s.argL = .ok .showFrame := by
    rw [hcmd]
    exact decode_commandWord (i := .showFrame) rfl nofun
  obtain ⟨v, hexec, hv⟩ := exec_showFrame_hasSent hh hi ho
  have hstart : step s = .next v := (stepRunsTheDecodedCommand s .showFrame hp hdecode).1 hin ▸ hexec
  have sent := run_hasSent hin hf hstart hv
  refine ⟨fun m hm => ?_, ?_⟩
  · cases m with
    | zero => exact ⟨s, rfl, by simp [State.busy, hp]⟩
    | succ k =>
      obtain ⟨u, hrun, ⟨ports, rfl⟩, _⟩ := sent k hm
      exact ⟨_, hrun, rfl⟩
  · obtain ⟨k, hk⟩ := Nat.exists_eq_add_one.mpr (frameLength_pos s.n)
    obtain ⟨u, hrun, hu⟩ := sent k (hk ▸ Nat.lt_succ_self k)
    obtain ⟨t, hstep, ht⟩ := hasSent_last hin hf hu hk.symm
    rw [Nat.add_comm, hk]
    exact ⟨t, core_run_step hrun hstep, ht⟩

end Sys2Proof.SerializerProofs
end

section
/-! The mirror port and SYNC (44_mirror.md R200 to R212): the port's accesses, one copy step, and the run that copies the whole buffer. -/

namespace Sys2Proof.MirrorProofs

open Sys2Proof.Machine Sys2Proof.Safety Sys2Proof.Laws Sys2Proof.StateProofs Sys2Proof.EncodingProofs Sys2Proof.EncoderProofs
  Sys2Proof.LifecycleProofs Sys2Proof.SerializerProofs

/-! ### The mirror port -/

theorem mirrorAdmits_iff (s : State) (addr : MirrorAddr) :
    mirrorAdmits s addr = true ↔ s.status.init = true ∧ addr.toNat < 4 * s.n := by
  rw [mirrorAdmits, Bool.and_eq_true, decide_eq_true_eq, bufferLength_eq]

theorem mirrorRead_eq (addr : MirrorAddr) (s : State) : mirrorRead addr s =
    if s.status.init = true ∧ addr.toNat < 4 * s.n then s.answerMirror (.data (s.mbByte addr.toNat)) else refuseMirror s := by
  simp only [mirrorRead, mirrorAdmits_iff]

theorem mirrorWrite_eq (addr : MirrorAddr) (data : Byte) (s : State) : mirrorWrite addr data s =
    if s.status.init = true ∧ addr.toNat < 4 * s.n then (s.writeMb addr.toNat data).answerMirror .written else refuseMirror s := by
  simp only [mirrorWrite, mirrorAdmits_iff]

/-- Settles O36: a pending access of the mirror agent is the next step, and `mirrorAdmits` decides which of its two ends it has. -/
theorem mirrorPortAdmitsExactlyTheBuffer : Obligations.MirrorPortAdmitsExactlyTheBuffer := by
  intro s addr data rest
  refine ⟨fun hin => (step_input hin).trans (congrArg Host.Outcome.next (mirrorRead_eq addr _)), fun hin => ?_⟩
  have hstep : step s = .next (mirrorWrite addr data { s with inputs := rest }) := step_input hin
  rw [mirrorWrite_eq] at hstep
  by_cases hadmit : s.status.init = true ∧ addr.toNat < 4 * s.n
  · simp only [if_pos hadmit]
    exact ⟨_, hstep.trans (congrArg _ (if_pos hadmit)), fun j => read_write s.mb addr.toNat j data, rfl⟩
  · simp only [if_neg hadmit]
    exact ⟨_, hstep.trans (congrArg _ (if_neg hadmit)), rfl⟩

/-! ### The first step of SYNC -/

/-- The command that copies in direction `dir`. -/
def syncCommand : Direction → Instr
  | .up => .syncUp
  | .down => .syncDown

/-- A SYNC starts with every offset left, or completes at once where there is none. -/
theorem startSync_eq (dir : Direction) (s : State) : startSync dir s =
    if s.n = 0 then { s with status := doneStatus s, phase := .idle }
    else { s with phase := .syncing dir (List.range (4 * s.n)) } := rfl

theorem exec_sync (dir : Direction) {s : State} (hh : s.status.halt = false) (hi : s.status.init = true) :
    exec (syncCommand dir) s = .next (startSync dir s) := by
  cases dir with
  | up => exact exec_runs (i := .syncUp) hh fun _ => hi
  | down => exact exec_runs (i := .syncDown) hh fun _ => hi

/-- Settles O32: each command's body is `startSync`, and the offsets it enters with are those of `List.range`. -/
theorem syncStartsWithEveryOffset : Obligations.SyncStartsWithEveryOffset := by
  intro s hh hi
  have hup := exec_sync .up hh hi
  have hdown := exec_sync .down hh hi
  rw [startSync_eq] at hup hdown
  refine ⟨fun hn => ?_, fun hn => ⟨List.range (4 * s.n), fun _ => List.mem_range, List.nodup_range, ?_⟩⟩
  · rw [if_pos hn] at hup hdown
    exact ⟨hup, hdown⟩
  · rw [if_neg hn] at hup hdown
    exact ⟨hup, hdown⟩

/-! ### A copy step -/

/-- A copy step changes nothing but the buffers, STATUS and the phase, and it completes the command when it leaves no offset. -/
theorem copyStep_frame (dir : Direction) (rest : List Nat) (j : Nat) (s : State) : copyStep dir rest j s =
    { s with
      fb := (copyStep dir rest j s).fb, mb := (copyStep dir rest j s).mb,
      status := if rest.filter (· != j) = [] then doneStatus s else s.status,
      phase := if rest.filter (· != j) = [] then .idle else .syncing dir (rest.filter (· != j)) } := by
  rw [copyStep_eq]
  cases dir <;> split <;> rfl

theorem copyStep_mb (dir : Direction) (rest : List Nat) (j : Nat) (s : State) :
    (copyStep dir rest j s).mb = if dir = .up then Memory.write s.mb j (s.fbByte j) else s.mb := by
  rw [copyStep_eq, ← copyByte_mb]
  split <;> rfl

theorem mbByte_copyStep (dir : Direction) (rest : List Nat) (j : Nat) (s : State) (i : Nat) :
    (copyStep dir rest j s).mbByte i = if dir = .up ∧ i = j then s.fbByte j else s.mbByte i := by
  rw [State.mbByte, copyStep_mb]
  cases dir with
  | up => simp [State.mbByte]
  | down => rfl

theorem fbByte_copyStep (dir : Direction) (rest : List Nat) (j : Nat) (s : State) (i : Nat) :
    (copyStep dir rest j s).fbByte i = if dir = .down ∧ i = j then s.mbByte j else s.fbByte i := by
  rw [State.fbByte, copyStep_fb]
  cases dir with
  | up => rfl
  | down => simp [State.fbByte]

/-- The sequencer's move in phase SYNCING copies the offset drawn from those left. -/
theorem step_syncing {s : State} {dir : Direction} {rest : List Nat} {pending : List Input} (hm : sequencerMoves s pending)
    (hp : s.phase = .syncing dir rest) (hrest : rest ≠ []) :
    step s = .next (copyStep dir rest (syncPick rest s.draws) (State.drawn { s with inputs := pending })) := by
  rw [step_sequencer hm, sequencerStep]
  simp only [hp]
  exact if_neg hrest

/-- Settles O33: the step is `copyStep` at `syncPick`, which is one of the offsets left. -/
theorem syncStepCopiesOneByte : Obligations.SyncStepCopiesOneByte := by
  intro s dir rest pending hm hp hrest
  exact ⟨_, syncPick rest s.draws, rest.filter (· != syncPick rest s.draws), step_syncing hm hp hrest,
    syncPick_mem rest s.draws hrest, fun i => by rw [List.mem_filter, bne_iff_ne],
    mbByte_copyStep dir rest _ _, fbByte_copyStep dir rest _ _, copyStep_frame dir rest _ _⟩

/-! ### The run of a SYNC -/

/-- The buffer a SYNC copies from (R201). -/
def sourceOf (dir : Direction) (s : State) : Memory :=
  match dir with
  | .up => s.fb
  | .down => s.mb

/-- The buffer a SYNC copies to (R201). -/
def targetOf (dir : Direction) (s : State) : Memory :=
  match dir with
  | .up => s.mb
  | .down => s.fb

/-- A copy step does not touch the buffer it copies from. -/
theorem sourceOf_copyStep (dir : Direction) (rest : List Nat) (j : Nat) (s : State) :
    sourceOf dir (copyStep dir rest j s) = sourceOf dir s := by
  cases dir with
  | up => exact copyStep_fb .up rest j s
  | down => exact copyStep_mb .down rest j s

/-- A copy step writes one byte of the buffer it copies to. -/
theorem read_targetOf_copyStep (dir : Direction) (rest : List Nat) (j : Nat) (s : State) (i : Nat) :
    Memory.read (targetOf dir (copyStep dir rest j s)) i =
      if i = j then Memory.read (sourceOf dir s) j else Memory.read (targetOf dir s) i := by
  cases dir with
  | up => simpa [sourceOf, targetOf, State.mbByte, State.fbByte] using mbByte_copyStep .up rest j s i
  | down => simpa [sourceOf, targetOf, State.mbByte, State.fbByte] using fbByte_copyStep .down rest j s i

/-- `u` comes from `s` by the start of a SYNC and the copy of every offset below 4N but those `left`; with none left SYNC has completed.
Nothing differs but the buffer copied to, STATUS, the phase and the number of draws. -/
structure HasCopied (s : State) (dir : Direction) (left : List Nat) (u : State) : Prop where
  rest : ∃ fb mb draws, u = { s with
    fb := fb, mb := mb, draws := draws, status := if left = [] then doneStatus s else s.status,
    phase := if left = [] then .idle else .syncing dir left }
  source : sourceOf dir u = sourceOf dir s
  target : ∀ i, Memory.read (targetOf dir u) i =
    if i < 4 * s.n ∧ i ∉ left then Memory.read (sourceOf dir s) i else Memory.read (targetOf dir s) i
  below : ∀ i ∈ left, i < 4 * s.n
  nodup : left.Nodup

/-- SYNC's first step has copied nothing. -/
theorem startSync_hasCopied (dir : Direction) (s : State) : HasCopied s dir (List.range (4 * s.n)) (startSync dir s) := by
  have frame : startSync dir s = { s with
      status := if List.range (4 * s.n) = [] then doneStatus s else s.status,
      phase := if List.range (4 * s.n) = [] then .idle else .syncing dir (List.range (4 * s.n)) } := by
    rw [startSync_eq]
    split <;> simp [*]
  rw [frame]
  refine ⟨⟨_, _, _, rfl⟩, rfl, fun i => ?_, fun _ => List.mem_range.mp, List.nodup_range⟩
  exact (if_neg fun ⟨hlt, hleft⟩ => hleft (List.mem_range.mpr hlt)).symm

/-- The copy of one offset of those left. -/
theorem HasCopied.copies {s u : State} {dir : Direction} {left : List Nat} {j : Nat} (h : HasCopied s dir left u) (hj : j ∈ left) :
    HasCopied s dir (left.erase j) (copyStep dir left j u.drawn) := by
  obtain ⟨⟨fb, mb, draws, hu⟩, hsource, htarget, hbelow, hnodup⟩ := h
  refine ⟨?_, (sourceOf_copyStep _ _ _ _).trans hsource, fun i => ?_, fun i hi => hbelow i (List.mem_of_mem_erase hi),
    hnodup.erase j⟩
  · have frame := copyStep_frame dir left j u.drawn
    have hleft := List.ne_nil_of_mem hj
    rw [if_neg hleft, if_neg hleft] at hu
    subst hu
    rw [← hnodup.erase_eq_filter] at frame
    exact ⟨_, _, _, frame⟩
  · rw [read_targetOf_copyStep]
    by_cases hij : i = j
    · subst hij
      rw [if_pos rfl, if_pos ⟨hbelow i hj, hnodup.not_mem_erase⟩]
      exact congrArg (Memory.read · i) hsource
    · simp only [if_neg hij, List.mem_erase_of_ne hij]
      exact htarget i

section
variable {s : State} {dir : Direction} (hin : s.inputs = [])
include hin

/-- The sequencer's next step while an offset is left. -/
theorem HasCopied.step_copies {left : List Nat} {u : State} (h : HasCopied s dir left u) (hleft : left ≠ []) :
    ∃ j v, j ∈ left ∧ step u = .next v ∧ HasCopied s dir (left.erase j) v := by
  have hj := syncPick_mem left u.draws hleft
  refine ⟨_, _, hj, ?_, h.copies hj⟩
  obtain ⟨⟨fb, mb, draws, hu⟩, _⟩ := h
  rw [if_neg hleft, if_neg hleft] at hu
  subst hu
  exact step_syncing (.inl ⟨hin, hin⟩) rfl hleft

/-- The run of a SYNC, from the step that starts it. -/
theorem run_hasCopied (hstart : step s = .next (startSync dir s)) (k : Nat) (hk : k ≤ 4 * s.n) :
    ∃ u left, core.run (k + 1) s = .next u ∧ HasCopied s dir left u ∧ left.length + k = 4 * s.n := by
  induction k with
  | zero => exact ⟨_, _, core_run_succ hstart 0, startSync_hasCopied dir s, by simp⟩
  | succ k ih =>
    obtain ⟨u, left, hrun, hu, hlen⟩ := ih (Nat.le_of_succ_le hk)
    have hpos : 0 < left.length := by omega
    obtain ⟨j, v, hj, hstep, hv⟩ := hu.step_copies hin (List.ne_nil_of_length_pos hpos)
    have fewer := List.length_erase_of_mem hj
    exact ⟨v, _, core_run_step hrun hstep, hv, by omega⟩

/-- The run of an accepted SYNC: busy until 1 + 4N steps have copied every offset (R201, R286). -/
theorem sync_run (hp : s.phase = .accepted) (hcmd : s.cmdL = (syncCommand dir).commandWord) (hh : s.status.halt = false)
    (hi : s.status.init = true) :
    (∀ m, m ≤ 4 * s.n → ∃ u, core.run m s = .next u ∧ u.busy = true) ∧
    ∃ t, core.run (1 + 4 * s.n) s = .next t ∧ HasCopied s dir [] t := by
  have hdecode : decode s.cmdL s.argL = .ok (syncCommand dir) := by
    rw [hcmd]
    cases dir <;> exact decode_commandWord rfl nofun
  have hstart : step s = .next (startSync dir s) :=
    ((stepRunsTheDecodedCommand s _ hp hdecode).1 hin).trans (exec_sync dir hh hi)
  have copied := run_hasCopied hin hstart
  refine ⟨fun m hm => ?_, ?_⟩
  · cases m with
    | zero => exact ⟨s, rfl, by simp [State.busy, hp]⟩
    | succ k =>
      obtain ⟨u, left, hrun, ⟨⟨fb, mb, draws, rfl⟩, _⟩, hlen⟩ := copied k (Nat.le_of_succ_le hm)
      have hleft : left ≠ [] := List.ne_nil_of_length_pos (by omega)
      exact ⟨_, hrun, by simp [State.busy, hleft]⟩
  · obtain ⟨t, left, hrun, ht, hlen⟩ := copied (4 * s.n) (Nat.le_refl _)
    obtain rfl : left = [] := List.eq_nil_of_length_eq_zero (by omega)
    rw [Nat.add_comm]
    exact ⟨t, hrun, ht⟩

end

/-- With no offset left, the buffer copied to has the bytes of the other below 4N. -/
theorem HasCopied.whole {s t : State} {dir : Direction} (h : HasCopied s dir [] t) (i : Nat) : Memory.read (targetOf dir t) i =
    if i < 4 * s.n then Memory.read (sourceOf dir s) i else Memory.read (targetOf dir s) i := by
  simpa using h.target i

/-- A completed SYNC has left its phase, reported its success, and kept N and the pending inputs. -/
theorem HasCopied.completed {s t : State} {dir : Direction} (h : HasCopied s dir [] t) :
    t.phase = .idle ∧ t.status = doneStatus s ∧ t.n = s.n ∧ t.inputs = s.inputs := by
  obtain ⟨⟨fb, mb, draws, rfl⟩, _⟩ := h
  exact ⟨rfl, rfl, rfl, rfl⟩

/-- Settles O34: either command's run is `sync_run` in its direction. -/
theorem syncCopiesTheWholeBuffer : Obligations.SyncCopiesTheWholeBuffer := by
  intro s hp hin hh hi
  refine ⟨fun hcmd => ?_, fun hcmd => ?_, fun hcmd => ?_⟩
  · rcases hcmd with hup | hdown
    · exact (sync_run (dir := .up) hin hp hup hh hi).1
    · exact (sync_run (dir := .down) hin hp hdown hh hi).1
  · obtain ⟨_, t, hrun, ht⟩ := sync_run (dir := .up) hin hp hcmd hh hi
    obtain ⟨hidle, hstatus, _, _⟩ := ht.completed
    exact ⟨t, hrun, hidle, hstatus, ht.source, ht.whole⟩
  · obtain ⟨_, t, hrun, ht⟩ := sync_run (dir := .down) hin hp hcmd hh hi
    obtain ⟨hidle, hstatus, _, _⟩ := ht.completed
    exact ⟨t, hrun, hidle, hstatus, ht.source, ht.whole⟩

/-- Settles O35: what SYNC_UP left in MB below 4N are the bytes of FB, and they are all that SYNC_DOWN writes. -/
theorem syncUpThenSyncDownIsANoOp : Obligations.SyncUpThenSyncDownIsANoOp := by
  intro s hp hcmd hin hh hi
  obtain ⟨_, t, hrun, ht⟩ := sync_run (dir := .up) hin hp hcmd hh hi
  obtain ⟨_, hstatus, hn, hinputs⟩ := ht.completed
  have halt : t.status.halt = false := hstatus ▸ hh
  have init : t.status.init = true := hstatus ▸ hi
  obtain ⟨_, u, hrun', hu⟩ := sync_run (dir := .down) (s := accept 0x80000000 t) (hinputs.trans hin) rfl rfl halt init
  obtain ⟨hidle, _, _, _⟩ := hu.completed
  refine ⟨t, u, hrun, hn ▸ hrun', hidle, fun j => ?_⟩
  have up : t.mbByte j = if j < 4 * s.n then s.fbByte j else s.mbByte j := ht.whole j
  have kept : t.fbByte j = s.fbByte j := congrArg (Memory.read · j) ht.source
  have down : u.fbByte j = if j < 4 * t.n then t.mbByte j else t.fbByte j := hu.whole j
  rw [down, hn, up, kept]
  by_cases hj : j < 4 * s.n
  · rw [if_pos hj, if_pos hj]
  · rw [if_neg hj]

end Sys2Proof.MirrorProofs
end

section
/-! The whole-buffer commands ROTATE and CLEAR (45_buffer_ops.md R220 to R227). -/

namespace Sys2Proof.BufferProofs

open Sys2Proof.Machine Sys2Proof.Safety Sys2Proof.Laws Sys2Proof.StateProofs Sys2Proof.EncoderProofs

/-! ### The pixel a rotation takes from -/

/-- The pixel whose record ROTATE `pos` moves to pixel `i`: emod(i + pos, N) (R222). -/
def rotateSource (pos : Int) (n i : Nat) : Nat := (((i : Int) + pos) % (n : Int)).toNat

theorem rotateSource_cast {n : Nat} (hn : 0 < n) (pos : Int) (i : Nat) : (rotateSource pos n i : Int) = ((i : Int) + pos) % n :=
  Int.toNat_of_nonneg (Int.emod_nonneg _ (by omega))

theorem rotateSource_lt {n : Nat} (hn : 0 < n) (pos : Int) (i : Nat) : rotateSource pos n i < n := by
  have below := Int.emod_lt_of_pos ((i : Int) + pos) (Int.natCast_pos.mpr hn)
  rw [← rotateSource_cast hn] at below
  exact Int.ofNat_lt.mp below

/-- The pixel, told by the distance that the model rotates by. -/
theorem rotateSource_eq {n : Nat} (hn : 0 < n) (pos : Int) (i : Nat) : rotateSource pos n i = (i + euclidMod pos n) % n := by
  have distance : (euclidMod pos n : Int) = pos % n := Int.toNat_of_nonneg (Int.emod_nonneg pos (by omega))
  apply Int.ofNat_inj.mp
  rw [rotateSource_cast hn, Int.natCast_emod, Int.natCast_add, distance, Int.add_emod_emod]

/-- Two rotations whose distances cancel modulo N take pixel `i` from itself (R224). -/
theorem rotateSource_cancel {pos inv : Int} {n i : Nat} (hi : i < n) (h : (pos + inv) % (n : Int) = 0) :
    rotateSource pos n (rotateSource inv n i) = i := by
  have hn : 0 < n := Nat.zero_lt_of_lt hi
  apply Int.ofNat_inj.mp
  calc (rotateSource pos n (rotateSource inv n i) : Int)
    _ = (((i : Int) + inv) % n + pos) % n := by rw [rotateSource_cast hn, rotateSource_cast hn]
    _ = ((i : Int) + (pos + inv)) % n := by rw [Int.emod_add_emod, Int.add_assoc, Int.add_comm inv]
    _ = (i : Int) % n := by rw [← Int.add_emod_emod, h, Int.add_zero]
    _ = i := Int.emod_eq_of_lt (by omega) (by omega)

/-! ### The bytes of a pixel -/

/-- ROTATE moves whole records: a byte keeps its channel (R221). -/
theorem read_rotatedFb {n i k : Nat} (hi : i < n) (hk : k < 4) (fb : Memory) (pos : Int) :
    Memory.read (rotatedFb fb n (rotateCutoff pos n)) (4 * i + k) = Memory.read fb (4 * rotateSource pos n i + k) := by
  have cutoff : rotateCutoff pos n = 4 * euclidMod pos n := rfl
  have record : (4 * i + k + 4 * euclidMod pos n) % (4 * n) = 4 * ((i + euclidMod pos n) % n) + k := by
    have channel : (4 * i + k + 4 * euclidMod pos n) % 4 = k := by omega
    have pixel : (4 * i + k + 4 * euclidMod pos n) / 4 = i + euclidMod pos n := by omega
    rw [Nat.mod_mul, channel, pixel, Nat.add_comm]
  rw [rotatedFb, read_tabulate, bufferLength_eq, if_pos (by omega), cutoff, record,
    rotateSource_eq (Nat.zero_lt_of_lt hi)]

/-- CLEAR keeps channel 0 of a pixel and zeroes the others (R226, R227). -/
theorem read_clearedFb {n i k : Nat} (hi : i < n) (hk : k < 4) (fb : Memory) :
    Memory.read (clearedFb fb n) (4 * i + k) = if k = 0 then Memory.read fb (4 * i + k) else 0 := by
  have channel : (4 * i + k) % Config.bytesPerPixel = k := (Nat.mul_add_mod 4 i k).trans (Nat.mod_eq_of_lt hk)
  rw [clearedFb, read_tabulate, bufferLength_eq, if_pos (by omega), channel]
  rfl

/-! ### ROTATE -/

/-- ROTATE of at least one pixel completes with FB rotated (R220). -/
theorem bodyOf_rotate {s : State} (hn : 0 < s.n) (pos : Int) :
    bodyOf (.rotate pos) s = complete none { s with fb := rotatedFb s.fb s.n (rotateCutoff pos s.n) } :=
  if_neg (Nat.ne_of_gt hn)

/-- ROTATE of no pixel fails with DIVZERO (R223). -/
theorem bodyOf_rotate_zero {s : State} (hn : s.n = 0) (pos : Int) : bodyOf (.rotate pos) s = failedState s .divzero none :=
  if_pos hn

theorem fbByte_rotate {s : State} {i k : Nat} (hi : i < s.n) (hk : k < 4) (pos : Int) :
    (bodyOf (.rotate pos) s).fbByte (4 * i + k) = s.fbByte (4 * rotateSource pos s.n i + k) := by
  rw [bodyOf_rotate (Nat.zero_lt_of_lt hi)]
  exact read_rotatedFb hi hk s.fb pos

/-- Settles O38, by whether there is a pixel to move. -/
theorem rotateMovesPixelRecords : Obligations.RotateMovesPixelRecords := by
  intro s pos hh hi
  have hexec := exec_runs (i := .rotate pos) hh fun _ => hi
  refine ⟨fun hn => ⟨_, hexec, fun i k hlt hk => fbByte_rotate hlt hk pos, ?_⟩, fun hn => ?_⟩
  · rw [bodyOf_rotate hn]
    rfl
  · rw [hexec, bodyOf_rotate_zero hn]

/-- Settles O39: the first ROTATE leaves what the second one's checks read, and the two take each pixel from itself. -/
theorem rotateThenInverseRestores : Obligations.RotateThenInverseRestores := by
  intro s pos inv hh hi hn hcancel
  have keeps : KeepsPorts s (bodyOf (.rotate pos) s) := bodyOf_keepsPorts s rfl
  have hcount : (bodyOf (.rotate pos) s).n = s.n := congrArg BitVec.toNat keeps.nleds
  refine ⟨_, _, exec_runs hh fun _ => hi, exec_runs (keeps.halt.trans hh) fun _ => keeps.init.trans hi, fun j hj => ?_⟩
  have hpixel : j / 4 < s.n := by omega
  have hchannel : j % 4 < 4 := Nat.mod_lt j (by decide)
  rw [← Nat.div_add_mod j 4, fbByte_rotate (hcount.symm ▸ hpixel) hchannel, hcount,
    fbByte_rotate (rotateSource_lt hn inv _) hchannel, rotateSource_cancel hpixel hcancel]

/-! ### CLEAR -/

/-- Settles O40, channel by channel. -/
theorem clearKeepsThePrefixBytes : Obligations.ClearKeepsThePrefixBytes := by
  intro s hh hi
  have hexec : exec .clear s = .next (complete none { s with fb := clearedFb s.fb s.n }) := exec_runs hh fun _ => hi
  refine ⟨_, hexec, fun i hlt => ?_, rfl⟩
  exact ⟨read_clearedFb hlt (k := 0) (by decide) s.fb, read_clearedFb hlt (k := 1) (by decide) s.fb,
    read_clearedFb hlt (k := 2) (by decide) s.fb, read_clearedFb hlt (k := 3) (by decide) s.fb⟩

end Sys2Proof.BufferProofs
end

section
/-! The refusals by HALTED and NOT_INIT (60_exceptions.md R245, R247), which come before every command's body. -/

namespace Sys2Proof.ExceptionProofs

open Sys2Proof.Machine Sys2Proof.Safety Sys2Proof.Laws Sys2Proof.EncodingProofs

/-- A failure that is not fatal writes STATUS, the phase and the fault log as R250 and R254 say. -/
theorem raise_eq_failedState (c : Cause) (info : Option Int) (s : State) : raise c false info s = failedState s c info :=
  raise_nonfatal c info s

/-! ### HALTED -/

/-- The check of HALT stands first in every command. -/
theorem exec_halted (i : Instr) {s : State} (h : s.status.halt = true) : exec i s = .next (failedState s .halted none) := by
  rw [exec_eq_checked, checked_halted _ s _ h, raise_eq_failedState]

/-- HALTED comes before ILLEGAL (R251). -/
theorem refuseIllegal_halted {s : State} (h : s.status.halt = true) : refuseIllegal s = failedState s .halted none := if_pos h

/-- The check of HALT comes first for a word that decodes and for one that does not. -/
theorem acceptedStep_halted {s : State} (h : s.status.halt = true) : acceptedStep s = .next (failedState s .halted none) := by
  by_cases hd : ∃ i, decode s.cmdL s.argL = .ok i
  · obtain ⟨i, hi⟩ := hd
    rw [acceptedStep_of_decode hi, exec_halted i h]
  · rw [acceptedStep_of_not_decodes hd, refuseIllegal_halted h]

/-- Settles O10: the step of an accepted word and every command begin with the check of HALT. -/
theorem haltedRefusesEveryCommand : Obligations.HaltedRefusesEveryCommand := by
  refine ⟨fun s pending hp hm hh => ?_, fun i _ hh => exec_halted i hh⟩
  exact (step_accepted hp hm).trans (acceptedStep_halted hh)

/-! ### NOT_INIT -/

/-- The model's checks ask for INIT = 1 of exactly the commands that R245 names. -/
theorem needsInit_eq_needsConfiguration (i : Instr) : needsInit i = needsConfiguration i := by cases i <;> rfl

/-- Settles O11: with HALT = 0 the check of INIT comes next, before the body. -/
theorem commandsBeforeInitAreRefused : Obligations.CommandsBeforeInitAreRefused := by
  intro i s hneeds hh hi
  rw [exec_eq_checked, needsInit_eq_needsConfiguration, hneeds, checked_notInit s _ hh hi, raise_eq_failedState]
  rfl

end Sys2Proof.ExceptionProofs
end

section
/-! What HALT leaves to the block (10_state.md R28, 60_exceptions.md R253, 70_reset_and_hazards.md R271): it is never cleared by a step, and
from a sound state with HALT = 1 every step leaves every port as it was. -/

namespace Sys2Proof.HazardProofs

open Sys2Proof.Machine Sys2Proof.Safety Sys2Proof.Laws Sys2Proof.StateProofs Sys2Proof.MirrorProofs Sys2Proof.ExceptionProofs

/-! ### HALT stays -/

/-- A failure keeps HALT, and sets it where the failure is fatal. -/
theorem raise_keeps_halt (c : Cause) (fatal : Bool) (info : Option Int) {s : State} (h : s.status.halt = true) :
    (raise c fatal info s).status.halt = true := by
  rw [raise_status]
  cases fatal with
  | false => exact h
  | true => rfl

theorem copyStep_halt (dir : Direction) (rest : List Nat) (j : Nat) (s : State) :
    (copyStep dir rest j s).status.halt = s.status.halt := by
  rw [copyStep_frame]
  split <;> rfl

theorem sequencerMove_keeps_halt {s t : State} (hm : SequencerMove s t) (h : s.status.halt = true) : t.status.halt = true := by
  cases hm with
  | fails c info => exact raise_keeps_halt c false info h
  | failsInit | failsShow | cutsOff => all_goals rfl
  | closes | constructs => all_goals rw [releaseTransport_eq_with]; exact h
  | copies dir rest => exact (copyStep_halt dir rest _ s.drawn).trans h
  | rests | completes | edits | selects | startsCopy | sendsLast | sends => all_goals exact h

/-- A write of STATUS clears ANYERR and OVR only. -/
theorem agentMove_keeps_halt {s t : State} (hm : AgentMove s t) (h : s.status.halt = true) : t.status.halt = true := by
  cases hm <;> exact h

theorem step_keeps_halt {s t : State} (hh : s.status.halt = true) (h : step s = .next t) : t.status.halt = true :=
  step_keeps (P := fun s => s.status.halt = true) (fun _ _ => id) (fun _ _ => sequencerMove_keeps_halt)
    (fun _ _ => agentMove_keeps_halt) hh h

/-! ### The ports stay -/

/-- With HALT = 1 a sound sequencer rests, or refuses the command just accepted: OPEN = 0 rules out a frame, and a SYNC runs with HALT = 0
only. -/
theorem sequencerStep_halted {s : State} (hh : s.status.halt = true) (hc : ConfigSound s) (hw : WireSound s) :
    sequencerStep s = .next s ∨ sequencerStep s = .next (failedState s .halted none) := by
  unfold sequencerStep
  split
  · exact .inl rfl
  · exact .inr (acceptedStep_halted hh)
  · next k hp =>
    obtain ⟨_, hopen, _⟩ := hw.sending k hp
    exact absurd (hopen.symm.trans (hc.haltClosed hh)) (by decide)
  · next dir rest hp =>
    obtain ⟨_, hrunning, _⟩ := hc.syncing dir rest hp
    exact absurd (hh.symm.trans hrunning) (by decide)

/-- The agents outside move no port. -/
theorem agentMove_port {s t : State} (hm : AgentMove s t) (p : PortIndex) : t.port p = s.port p := by
  cases hm <;> rfl

theorem step_halted_port {s t : State} (hh : s.status.halt = true) (hc : ConfigSound s) (hw : WireSound s) (h : step s = .next t)
    (p : PortIndex) : t.port p = s.port p := by
  rcases step_source s with ⟨rest, hq⟩ | ⟨i, rest, hi, hin⟩
  · rw [step_sequencer hq] at h
    rcases sequencerStep_halted (s := { s with inputs := rest }) hh { hc with } { hw with } with hstep | hstep <;>
      cases hstep.symm.trans h <;> rfl
  · rw [step_input hin] at h
    exact agentMove_port (inputStep_move hi h) p

/-- Settles O51: the moves of a step keep HALT, and with HALT = 1 the sequencer has nothing left that reaches a port. -/
theorem noStepClearsHalt : Obligations.NoStepClearsHalt :=
  ⟨fun _ _ hh h => ⟨step_keeps_halt hh h, fun hc hw => step_halted_port hh hc hw h⟩, fun _ => rfl⟩

end Sys2Proof.HazardProofs
end

section
/-! Every command ends (70_reset_and_hazards.md R285, R286): a bound on the sequencer's steps to IDLE that every one of its moves lowers. -/

namespace Sys2Proof.HazardProofs

open Sys2Proof.Machine Sys2Proof.Safety Sys2Proof.Laws Sys2Proof.StateProofs Sys2Proof.EncodingProofs Sys2Proof.MirrorProofs

/-! ### The steps left -/

/-- At most so many steps of the sequencer are left before it is IDLE: in phase SHOWING one for each byte not yet sent, in phase SYNCING one
for each offset not yet copied, and in phase ACCEPTED the first step and then at most FLEN(N). -/
def stepsLeft (s : State) : Nat :=
  match s.phase with
  | .idle => 0
  | .accepted => 1 + frameLength s.n
  | .showing k => frameLength s.n - k
  | .syncing _ rest => rest.length

theorem stepsLeft_idle {s : State} (hp : s.phase = .idle) : stepsLeft s = 0 := by simp only [stepsLeft, hp]

theorem stepsLeft_accepted {s : State} (hp : s.phase = .accepted) : stepsLeft s = 1 + frameLength s.n := by
  simp only [stepsLeft, hp]

theorem stepsLeft_showing {s : State} {k : Nat} (hp : s.phase = .showing k) : stepsLeft s = frameLength s.n - k := by
  simp only [stepsLeft, hp]

theorem stepsLeft_syncing {s : State} {dir : Direction} {rest : List Nat} (hp : s.phase = .syncing dir rest) :
    stepsLeft s = rest.length := by
  simp only [stepsLeft, hp]

/-- A whole frame is longer than the buffer it carries (40_encoder.md R116). -/
theorem bufferLength_le_frameLength (n : Nat) : bufferLength n ≤ frameLength n := by
  rw [bufferLength_eq, frameLength]
  omega

/-- The offsets left of a SYNC are distinct and below 4N, so there are at most 4N of them. -/
theorem offsetsLeft_length_le {rest : List Nat} {m : Nat} (hsorted : rest.Pairwise (· < ·)) (hbound : ∀ j ∈ rest, j < m) :
    rest.length ≤ m := by
  have hnodup : rest.Nodup := hsorted.imp Nat.ne_of_lt
  have hsub : rest ⊆ List.range m := fun j hj => List.mem_range.mpr (hbound j hj)
  simpa using (hnodup.subperm hsub).length_le

theorem stepsLeft_le {s : State} (hc : ConfigSound s) : stepsLeft s ≤ 1 + frameLength s.n := by
  cases hp : s.phase with
  | idle => rw [stepsLeft_idle hp]; exact Nat.zero_le _
  | accepted => exact Nat.le_of_eq (stepsLeft_accepted hp)
  | showing k => rw [stepsLeft_showing hp]; omega
  | syncing dir rest =>
    obtain ⟨_, _, _, hsorted, hbound⟩ := hc.syncing dir rest hp
    have hlen := offsetsLeft_length_le hsorted hbound
    have hframe := bufferLength_le_frameLength s.n
    rw [stepsLeft_syncing hp]
    omega

/-- A sound sequencer with a command has a step left. -/
theorem stepsLeft_pos {s : State} (hc : ConfigSound s) (hw : WireSound s) (hbusy : s.phase ≠ .idle) : 0 < stepsLeft s := by
  cases hp : s.phase with
  | idle => exact absurd hp hbusy
  | accepted => rw [stepsLeft_accepted hp]; omega
  | showing k =>
    obtain ⟨hk, _⟩ := hw.sending k hp
    rw [stepsLeft_showing hp]
    omega
  | syncing dir rest =>
    obtain ⟨_, _, hleft, _⟩ := hc.syncing dir rest hp
    rw [stepsLeft_syncing hp]
    exact List.length_pos_iff.mpr hleft

/-! ### Every move of the sequencer brings IDLE nearer -/

/-- A copy step that does not complete the SYNC leaves fewer offsets. -/
theorem copyStep_nears {s : State} {dir : Direction} {rest : List Nat} {j : Nat} (hj : j ∈ rest) :
    (copyStep dir rest j s).phase = .idle ∨ stepsLeft (copyStep dir rest j s) < rest.length := by
  have fewer : (rest.filter (· != j)).length < rest.length :=
    List.length_filter_lt_length_iff_exists.mpr ⟨j, hj, by simp⟩
  rw [copyStep_frame]
  by_cases hleft : rest.filter (· != j) = []
  · exact .inl (if_pos hleft)
  · right
    rw [stepsLeft_syncing (if_neg hleft)]
    exact fewer

theorem sequencerMove_nears {s t : State} (hm : SequencerMove s t) (hbusy : s.phase ≠ .idle) :
    t.phase = .idle ∨ stepsLeft t < stepsLeft s := by
  cases hm with
  | rests hp => exact absurd hp hbusy
  | completes | edits | closes | constructs | sendsLast => all_goals exact .inl rfl
  | fails | failsInit | failsShow | cutsOff => all_goals exact .inl (raise_phase _ _ _ _)
  | selects hp =>
    right
    rw [stepsLeft_accepted hp, stepsLeft_showing rfl]
    exact Nat.lt_one_add_iff.mpr (Nat.le_refl _)
  | startsCopy dir hp =>
    right
    rw [stepsLeft_accepted hp, stepsLeft_syncing rfl, List.length_range]
    exact Nat.lt_one_add_iff.mpr (bufferLength_le_frameLength s.n)
  | sends k hp hk =>
    right
    rw [stepsLeft_showing hp, stepsLeft_showing rfl]
    exact Nat.sub_succ_lt_self _ _ (Nat.lt_of_succ_lt hk)
  | copies dir rest hp hr =>
    rw [stepsLeft_syncing hp]
    exact copyStep_nears (syncPick_mem rest _ hr)

/-- The sequencer leaves the pending inputs alone. -/
theorem sequencerMove_inputs {s t : State} (hm : SequencerMove s t) : t.inputs = s.inputs := by
  cases hm with
  | fails | failsShow | cutsOff => all_goals exact raise_inputs _ _ _ _
  | closes | constructs | failsInit => all_goals rw [releaseTransport_eq_with]; rfl
  | copies => rw [copyStep_frame]; rfl
  | rests | completes | edits | selects | startsCopy | sendsLast | sends => all_goals rfl

/-- With no input pending, a sound state with a command takes a step that brings IDLE nearer. -/
theorem step_nears {s : State} (hc : ConfigSound s) (hw : WireSound s) (hin : s.inputs = []) (hbusy : s.phase ≠ .idle) :
    ∃ t, step s = .next t ∧ t.inputs = [] ∧ stepsLeft t < stepsLeft s := by
  obtain ⟨t, hstep⟩ := soundStatesNeverStop s hc hw
  have hsequencer : step s = sequencerStep s := by simp only [step, hin]
  have hm := sequencerStep_move (hsequencer ▸ hstep)
  refine ⟨t, hstep, (sequencerMove_inputs hm).trans hin, ?_⟩
  rcases sequencerMove_nears hm hbusy with hidle | hnearer
  · rw [stepsLeft_idle hidle]
    exact stepsLeft_pos hc hw hbusy
  · exact hnearer

/-! ### The run to IDLE -/

/-- A bound on the steps left bounds the run to IDLE, by induction on the bound. -/
theorem run_reaches_idle (m : Nat) : ∀ {s : State}, ConfigSound s → WireSound s → s.inputs = [] → stepsLeft s ≤ m →
    ∃ k t, k ≤ m ∧ core.run k s = .next t ∧ t.phase = .idle := by
  induction m with
  | zero =>
    intro s hc hw _ hm
    by_cases hp : s.phase = .idle
    · exact ⟨0, s, Nat.le_refl _, rfl, hp⟩
    · exact absurd (stepsLeft_pos hc hw hp) (Nat.not_lt.mpr hm)
  | succ m ih =>
    intro s hc hw hin hm
    by_cases hp : s.phase = .idle
    · exact ⟨0, s, Nat.zero_le _, rfl, hp⟩
    · obtain ⟨u, hstep, hu, hnearer⟩ := step_nears hc hw hin hp
      obtain ⟨k, t, hk, hrun, hidle⟩ := ih (stepKeepsTheConfigurationSound s u hc hstep) (stepKeepsTheWireSound s u hw hstep) hu
        (Nat.le_of_lt_succ (Nat.lt_of_lt_of_le hnearer hm))
      exact ⟨k + 1, t, Nat.succ_le_succ hk, (core_run_succ hstep k).trans hrun, hidle⟩

/-- Settles O60: no phase has more than 1 + FLEN(N) steps left. -/
theorem everyCommandEnds : Obligations.EveryCommandEnds := fun _ hc hw hin =>
  run_reaches_idle _ hc hw hin (stepsLeft_le hc)

end Sys2Proof.HazardProofs
end
